-- ==== Sys2Proof/Word.lean ====
section
/-! DEFINITION. The widths of MUP1-FD (spec 00_scope.md R9, R10): bytes of 8 bits, operation and response
words of 32 bits, the 11-bit operand N. All values are unsigned. -/

namespace Sys2Proof

/-- A wire byte, type byte, payload byte or checksum digit (R9). -/
abbrev Byte := BitVec 8

/-- An operation word or a response word (R9, R56, R57). -/
abbrev Word := BitVec 32

/-- The 11-bit unsigned operand N: a length or an index (R56). -/
abbrev Index := BitVec 11

end Sys2Proof
end

