-- ==== Sys2Proof/Machine/OpMap.lean ====
section
/-! DEFINITION. The operation map (spec 30_encoding.md R58 and the op_word rows of opcode_table.json): each
row's match and mask, and the row a word selects. -/

namespace Sys2Proof.Machine

/-- The rows of the operation map that have a match and a mask: the nine operations and the seven reserved
op codes. -/
inductive OpCode where
  | nop | rxb | txw | txf | rqh | rqb | rqp | stat | rst
  | res8 | res9 | resA | resB | resC | resD | resE
  deriving DecidableEq, Repr

/-- The row's match (R58). -/
def opMatch : OpCode → Word
  | .nop => 0x00000000#32
  | .rxb => 0x10000000#32
  | .txw => 0x20000000#32
  | .txf => 0x30000000#32
  | .rqh => 0x40000000#32
  | .rqb => 0x50000000#32
  | .rqp => 0x60000000#32
  | .stat => 0x70000000#32
  | .rst => 0xF0000000#32
  | .res8 => 0x80000000#32
  | .res9 => 0x90000000#32
  | .resA => 0xA0000000#32
  | .resB => 0xB0000000#32
  | .resC => 0xC0000000#32
  | .resD => 0xD0000000#32
  | .resE => 0xE0000000#32

/-- The row's mask (R58).

The mask of RQB is read with R56 beside it. R58 and the table print 0xF80000FF, which leaves bits [15:8]
free, and R56, R59 and R174 say that bits [15:8] must be 0 (log entry 14). -/
def opMask : OpCode → Word
  | .nop => 0xFFFFFFFF#32
  | .rxb => 0xFFFFFF00#32
  | .txw => 0xF800FF00#32
  | .txf => 0xF800FF00#32
  | .rqh => 0xFFFFFFFF#32
  | .rqb => 0xF800FFFF#32
  | .rqp => 0xFFFFFFFF#32
  | .stat => 0xFFFFFFFF#32
  | .rst => 0xFFFFFFFF#32
  | .res8 => 0xF0000000#32
  | .res9 => 0xF0000000#32
  | .resA => 0xF0000000#32
  | .resB => 0xF0000000#32
  | .resC => 0xF0000000#32
  | .resD => 0xF0000000#32
  | .resE => 0xF0000000#32

/-- Every row, in the table's order. -/
def opCodes : List OpCode :=
  [.nop, .rxb, .txw, .txf, .rqh, .rqb, .rqp, .stat, .rst, .res8, .res9, .resA, .resB, .resC, .resD, .resE]

/-- A word selects a row when `(word & mask) == match` (R58). -/
def opSelects (o : OpCode) (w : Word) : Bool := w &&& opMask o == opMatch o

/-- The row a word selects, if any (R58, R59). -/
def selectedOp (w : Word) : Option OpCode := opCodes.find? (fun o => opSelects o w)

end Sys2Proof.Machine
end

