-- ==== Sys2Proof/Machine/Operands.lean ====
section
/-! DEFINITION. The two operand forms of an operation word (spec 30_encoding.md R56): N = word[26:16] and
B = word[7:0], plain unsigned values; and the payload bits of a reserved op code. Each has its inverse, the
word with the operand in its place (the table of R61). -/

namespace Sys2Proof.Machine

/-- N = zext_11(word[26:16]) (R56). -/
def operandN (w : Word) : Index := w.extractLsb' 16 11

/-- B = word[7:0] (R56). -/
def operandB (w : Word) : Byte := w.extractLsb' 0 8

/-- Bits [27:0], which a reserved op code leaves free (R60). -/
def operandX (w : Word) : BitVec 28 := w.extractLsb' 0 28

/-- N in its place: `n << 16` (R61). -/
def placeN (n : Index) : Word := n.setWidth 32 <<< 16

/-- B in its place (R61). -/
def placeB (b : Byte) : Word := b.setWidth 32

/-- The free bits of a reserved op code in their place. -/
def placeX (x : BitVec 28) : Word := x.setWidth 32

end Sys2Proof.Machine
end

