-- ==== Sys2Proof/Syntax.lean ====
section
/-! DEFINITION. The operations of MUP1-FD: one constructor per row of spec/opcode_table.json, in the
table's order. The first nine are the operations (30_encoding.md R58); then the reserved op codes and
ILLEGAL (R60); then the 29 rows `RXB@STATE:CASE`, the cases of RXB (42_deframer.md R131 to R149), whose
words are words of RXB and are told apart by the state they meet (log entry 4). -/

namespace Sys2Proof

inductive Instr where
  /-- NOP (R170). -/
  | nop
  /-- RXB: consume the received byte `b` (R130). -/
  | rxb (b : Byte)
  /-- TXW: write `b` to transmit-buffer cell `n` (R115). -/
  | txw (n : Index) (b : Byte)
  /-- TXF: send a frame of type `t` with the first `n` cells as payload (R116). -/
  | txf (n : Index) (t : Byte)
  /-- RQH: read the head frame's header (R172). -/
  | rqh
  /-- RQB: read payload byte `n` of the head frame (R174). -/
  | rqb (n : Index)
  /-- RQP: remove the head frame (R176). -/
  | rqp
  /-- STAT: read the status word (R178). -/
  | stat
  /-- RST: soft reset (R179). -/
  | rst
  /-- OP 0x8, reserved; `x` is bits [27:0], any value (R60; log entry 5). -/
  | reserved8 (x : BitVec 28)
  /-- OP 0x9, reserved (R60). -/
  | reserved9 (x : BitVec 28)
  /-- OP 0xA, reserved (R60). -/
  | reservedA (x : BitVec 28)
  /-- OP 0xB, reserved (R60). -/
  | reservedB (x : BitVec 28)
  /-- OP 0xC, reserved (R60). -/
  | reservedC (x : BitVec 28)
  /-- OP 0xD, reserved (R60). -/
  | reservedD (x : BitVec 28)
  /-- OP 0xE, reserved (R60). -/
  | reservedE (x : BitVec 28)
  /-- Any word `w` that matches no other op_word row (R59, R60; log entry 5). -/
  | illegal (w : Word)
  /-- INIT, 0x3E (R131). -/
  | rxbInitSof
  /-- INIT, any other byte (R132). -/
  | rxbInitDiscard (b : Byte)
  /-- SOF, any byte (R133). -/
  | rxbSofType (b : Byte)
  /-- DATA, 0x3E (R134). -/
  | rxbDataBadData3E
  /-- DATA, 0x00 (R134). -/
  | rxbDataBadData00
  /-- DATA, 0xFF (R134). -/
  | rxbDataBadDataFF
  /-- DATA, 0x5C (R135). -/
  | rxbDataEsc
  /-- DATA, 0x3C, odd payload length (R136). -/
  | rxbDataEofOdd
  /-- DATA, 0x3C, even payload length (R137). -/
  | rxbDataEofEven
  /-- DATA, ORDINARY, payload below 1024 bytes (R138). -/
  | rxbDataAppend (b : Byte)
  /-- DATA, ORDINARY, payload of 1024 bytes (R139). -/
  | rxbDataOversize (b : Byte)
  /-- ESC, target 0x3E, payload below 1024 bytes (R140). -/
  | rxbEscTarget3E
  /-- ESC, target 0x3E, payload of 1024 bytes (R141). -/
  | rxbEscTarget3EOversize
  /-- ESC, target 0x3C, payload below 1024 bytes (R140). -/
  | rxbEscTarget3C
  /-- ESC, target 0x3C, payload of 1024 bytes (R141). -/
  | rxbEscTarget3COversize
  /-- ESC, target 0x5C, payload below 1024 bytes (R140). -/
  | rxbEscTarget5C
  /-- ESC, target 0x5C, payload of 1024 bytes (R141). -/
  | rxbEscTarget5COversize
  /-- ESC, target 0x30, payload below 1024 bytes (R140). -/
  | rxbEscTarget30
  /-- ESC, target 0x30, payload of 1024 bytes (R141). -/
  | rxbEscTarget30Oversize
  /-- ESC, target 0x46, payload below 1024 bytes (R140). -/
  | rxbEscTarget46
  /-- ESC, target 0x46, payload of 1024 bytes (R141). -/
  | rxbEscTarget46Oversize
  /-- ESC, no valid target (R142). -/
  | rxbEscBadEsc (b : Byte)
  /-- EOF2, 0x3C (R143). -/
  | rxbEof2Eof
  /-- EOF2, any other byte (R144). -/
  | rxbEof2Missing (b : Byte)
  /-- CHK0, any byte (R145). -/
  | rxbChk0Digit0 (b : Byte)
  /-- CHK1, any byte (R146). -/
  | rxbChk1Digit1 (b : Byte)
  /-- CHK2, any byte (R147). -/
  | rxbChk2Digit2 (b : Byte)
  /-- CHK3, the digits are those of the checksum (R148). -/
  | rxbChk3Verified (b : Byte)
  /-- CHK3, the digits differ (R149). -/
  | rxbChk3Mismatch (b : Byte)
  deriving DecidableEq, Repr

end Sys2Proof
end

