-- ==== Sys2Proof/Machine/Wire.lean ====
section
/-! DEFINITION. The wire constants and byte classes (spec 30_encoding.md R62, R64, R65; 00_scope.md R6, R8)
and the two escape maps (40_checksum.md R95, R96). Each literal of the source is a name of its own here, so
that a correction changes one definition (93_implementation_defined.md, section 4; log entry 13). -/

namespace Sys2Proof.Machine

/-- SOF, the start-of-frame byte (R62). -/
def sofByte : Byte := 0x3E#8

/-- EOF, the end-of-frame byte (R62). -/
def eofByte : Byte := 0x3C#8

/-- ESC, the escape byte (R62). -/
def escByte : Byte := 0x5C#8

/-- The payload byte 0x00, which travels as ESC '0' (R62, R65). -/
def zeroByte : Byte := 0x00#8

/-- The payload byte 0xFF, which travels as ESC 'F' (R62, R65). -/
def onesByte : Byte := 0xFF#8

/-- The escape target of 0x00, ASCII '0' (R62). -/
def zeroTarget : Byte := 0x30#8

/-- The escape target of 0xFF, ASCII 'F' (R62). -/
def onesTarget : Byte := 0x46#8

/-- MAX_PAYLOAD: the longest unescaped payload (R6). -/
def maxPayload : Nat := 1024

/-- TXBUF_SIZE: the cells of the transmit buffer (R8). -/
def txbufSize : Nat := 1024

/-- Class FORBIDDEN of a byte seen in DATA (R64). -/
def isForbidden (b : Byte) : Bool := b == sofByte || b == zeroByte || b == onesByte

/-- Class ORDINARY of a byte seen in DATA: the 251 values that stand for themselves (R64). -/
def isOrdinary (b : Byte) : Bool := !(b == escByte || b == eofByte || isForbidden b)

/-- EscapeByte (R95). -/
def escapeByte (b : Byte) : List Byte :=
  if b == sofByte then [escByte, sofByte]
  else if b == eofByte then [escByte, eofByte]
  else if b == escByte then [escByte, escByte]
  else if b == zeroByte then [escByte, zeroTarget]
  else if b == onesByte then [escByte, onesTarget]
  else [b]

/-- Unescape, defined on the five valid escape targets only (R96). -/
def unescape (t : Byte) : Option Byte :=
  if t == sofByte then some sofByte
  else if t == eofByte then some eofByte
  else if t == escByte then some escByte
  else if t == zeroTarget then some zeroByte
  else if t == onesTarget then some onesByte
  else none

/-- Whether the deframer takes `t` after ESC: one of the five valid escape targets (R65). -/
def isTarget (t : Byte) : Bool := (unescape t).isSome

/-- E(n): one EOF after a payload of odd length, two after one of even length (R94, R112). -/
def eofPadding (n : Nat) : List Byte :=
  if n % 2 = 1 then [eofByte] else [eofByte, eofByte]

end Sys2Proof.Machine
end

