-- ==== Sys2Proof/WellFormed.lean ====
section
/-! DEFINITION. Which terms of `Instr` are instructions: the checks the types do not make. A row
`RXB@STATE:CASE` whose condition restricts B holds only such a byte, and ILLEGAL holds only a word that
selects no row (spec opcode_table.json, 30_encoding.md R59). -/

namespace Sys2Proof

open Sys2Proof.Machine

/-- The checks of every constructor. -/
def Instr.wf : Instr → Bool
  | .nop => true
  | .rxb _ => true
  | .txw _ _ => true
  | .txf _ _ => true
  | .rqh => true
  | .rqb _ => true
  | .rqp => true
  | .stat => true
  | .rst => true
  | .reserved8 _ => true
  | .reserved9 _ => true
  | .reservedA _ => true
  | .reservedB _ => true
  | .reservedC _ => true
  | .reservedD _ => true
  | .reservedE _ => true
  | .illegal w => (selectedOp w).isNone
  | .rxbInitSof => true
  | .rxbInitDiscard b => b != sofByte
  | .rxbSofType _ => true
  | .rxbDataBadData3E => true
  | .rxbDataBadData00 => true
  | .rxbDataBadDataFF => true
  | .rxbDataEsc => true
  | .rxbDataEofOdd => true
  | .rxbDataEofEven => true
  | .rxbDataAppend b => isOrdinary b
  | .rxbDataOversize b => isOrdinary b
  | .rxbEscTarget3E => true
  | .rxbEscTarget3EOversize => true
  | .rxbEscTarget3C => true
  | .rxbEscTarget3COversize => true
  | .rxbEscTarget5C => true
  | .rxbEscTarget5COversize => true
  | .rxbEscTarget30 => true
  | .rxbEscTarget30Oversize => true
  | .rxbEscTarget46 => true
  | .rxbEscTarget46Oversize => true
  | .rxbEscBadEsc b => !isTarget b
  | .rxbEof2Eof => true
  | .rxbEof2Missing b => b != eofByte
  | .rxbChk0Digit0 _ => true
  | .rxbChk1Digit1 _ => true
  | .rxbChk2Digit2 _ => true
  | .rxbChk3Verified _ => true
  | .rxbChk3Mismatch _ => true

/-- The received byte of RXB and of its rows, none for every other instruction (42_deframer.md R130). -/
def Instr.rxByte : Instr → Option Byte
  | .nop => none
  | .rxb b => some b
  | .txw _ _ => none
  | .txf _ _ => none
  | .rqh => none
  | .rqb _ => none
  | .rqp => none
  | .stat => none
  | .rst => none
  | .reserved8 _ => none
  | .reserved9 _ => none
  | .reservedA _ => none
  | .reservedB _ => none
  | .reservedC _ => none
  | .reservedD _ => none
  | .reservedE _ => none
  | .illegal _ => none
  | .rxbInitSof => some sofByte
  | .rxbInitDiscard b => some b
  | .rxbSofType b => some b
  | .rxbDataBadData3E => some sofByte
  | .rxbDataBadData00 => some zeroByte
  | .rxbDataBadDataFF => some onesByte
  | .rxbDataEsc => some escByte
  | .rxbDataEofOdd => some eofByte
  | .rxbDataEofEven => some eofByte
  | .rxbDataAppend b => some b
  | .rxbDataOversize b => some b
  | .rxbEscTarget3E => some sofByte
  | .rxbEscTarget3EOversize => some sofByte
  | .rxbEscTarget3C => some eofByte
  | .rxbEscTarget3COversize => some eofByte
  | .rxbEscTarget5C => some escByte
  | .rxbEscTarget5COversize => some escByte
  | .rxbEscTarget30 => some zeroTarget
  | .rxbEscTarget30Oversize => some zeroTarget
  | .rxbEscTarget46 => some onesTarget
  | .rxbEscTarget46Oversize => some onesTarget
  | .rxbEscBadEsc b => some b
  | .rxbEof2Eof => some eofByte
  | .rxbEof2Missing b => some b
  | .rxbChk0Digit0 b => some b
  | .rxbChk1Digit1 b => some b
  | .rxbChk2Digit2 b => some b
  | .rxbChk3Verified b => some b
  | .rxbChk3Mismatch b => some b

/-- The operation an instruction's word spells: RXB of its byte for RXB and its rows, itself for every other
instruction. A word does not say in which state it will be taken (log entry 4). -/
def Instr.operation (i : Instr) : Instr :=
  match i.rxByte with
  | some b => .rxb b
  | none => i

/-- The words that spell no operation: the reserved op codes and ILLEGAL (R60). -/
def Instr.isIllegal : Instr → Bool
  | .reserved8 _ | .reserved9 _ | .reservedA _ | .reservedB _ => true
  | .reservedC _ | .reservedD _ | .reservedE _ | .illegal _ => true
  | _ => false

end Sys2Proof
end

