-- ==== Sys2Proof/Decode.lean ====
section
/-! DEFINITION. Decode (spec 30_encoding.md R59), total on all 2^32 words, and the encoder, from the table
of R61. A word carries no deframer state, so it decodes to RXB and never to a row of RXB (log entry 4). -/

namespace Sys2Proof

open Sys2Proof.Machine

/-- The operation of the row a word selects, with its operands, or ILLEGAL when it selects none (R59). -/
def decode (w : Word) : Instr :=
  match selectedOp w with
  | some .nop => .nop
  | some .rxb => .rxb (operandB w)
  | some .txw => .txw (operandN w) (operandB w)
  | some .txf => .txf (operandN w) (operandB w)
  | some .rqh => .rqh
  | some .rqb => .rqb (operandN w)
  | some .rqp => .rqp
  | some .stat => .stat
  | some .rst => .rst
  | some .res8 => .reserved8 (operandX w)
  | some .res9 => .reserved9 (operandX w)
  | some .resA => .reservedA (operandX w)
  | some .resB => .reservedB (operandX w)
  | some .resC => .reservedC (operandX w)
  | some .resD => .reservedD (operandX w)
  | some .resE => .reservedE (operandX w)
  | none => .illegal w

/-- Why a string of bits is not one operation word. A word itself is never rejected (R59). -/
inductive DecodeError where
  /-- More bits than the 32 of an operation word (R56). -/
  | longerThanAWord (nbits : Nat)
  /-- The value does not fit the bits it is said to have. -/
  | valueTooWide (nbits w : Nat)
  deriving DecidableEq, Repr

/-- Decode a string of `nbits` bits whose value is `w`, the bits above it 0 (log entry 9). An operation word
crosses the port whole, so there is no byte order to settle (20_memory.md R46). -/
def decodeBits (nbits w : Nat) : Except DecodeError Instr :=
  if 32 < nbits then .error (.longerThanAWord nbits)
  else if 2 ^ nbits ≤ w then .error (.valueTooWide nbits w)
  else .ok (decode (BitVec.ofNat 32 w))

/-- The instruction the decoder reads from an instruction of the opcode table's numbering. -/
def decodeTableWord (nbits w : Nat) : Option Instr :=
  match decodeBits nbits w with
  | .ok i => some i
  | .error _ => none

/-- The word of an instruction (R61): RXB and its rows are `0x10000000 | b`. -/
def encode (i : Instr) : Word :=
  match i with
  | .nop => opMatch .nop
  | .rxb b => opMatch .rxb ||| placeB b
  | .txw n b => opMatch .txw ||| placeN n ||| placeB b
  | .txf n t => opMatch .txf ||| placeN n ||| placeB t
  | .rqh => opMatch .rqh
  | .rqb n => opMatch .rqb ||| placeN n
  | .rqp => opMatch .rqp
  | .stat => opMatch .stat
  | .rst => opMatch .rst
  | .reserved8 x => opMatch .res8 ||| placeX x
  | .reserved9 x => opMatch .res9 ||| placeX x
  | .reservedA x => opMatch .resA ||| placeX x
  | .reservedB x => opMatch .resB ||| placeX x
  | .reservedC x => opMatch .resC ||| placeX x
  | .reservedD x => opMatch .resD ||| placeX x
  | .reservedE x => opMatch .resE ||| placeX x
  | .illegal w => w
  | .rxbInitSof => opMatch .rxb ||| placeB sofByte
  | .rxbInitDiscard b => opMatch .rxb ||| placeB b
  | .rxbSofType b => opMatch .rxb ||| placeB b
  | .rxbDataBadData3E => opMatch .rxb ||| placeB sofByte
  | .rxbDataBadData00 => opMatch .rxb ||| placeB zeroByte
  | .rxbDataBadDataFF => opMatch .rxb ||| placeB onesByte
  | .rxbDataEsc => opMatch .rxb ||| placeB escByte
  | .rxbDataEofOdd => opMatch .rxb ||| placeB eofByte
  | .rxbDataEofEven => opMatch .rxb ||| placeB eofByte
  | .rxbDataAppend b => opMatch .rxb ||| placeB b
  | .rxbDataOversize b => opMatch .rxb ||| placeB b
  | .rxbEscTarget3E => opMatch .rxb ||| placeB sofByte
  | .rxbEscTarget3EOversize => opMatch .rxb ||| placeB sofByte
  | .rxbEscTarget3C => opMatch .rxb ||| placeB eofByte
  | .rxbEscTarget3COversize => opMatch .rxb ||| placeB eofByte
  | .rxbEscTarget5C => opMatch .rxb ||| placeB escByte
  | .rxbEscTarget5COversize => opMatch .rxb ||| placeB escByte
  | .rxbEscTarget30 => opMatch .rxb ||| placeB zeroTarget
  | .rxbEscTarget30Oversize => opMatch .rxb ||| placeB zeroTarget
  | .rxbEscTarget46 => opMatch .rxb ||| placeB onesTarget
  | .rxbEscTarget46Oversize => opMatch .rxb ||| placeB onesTarget
  | .rxbEscBadEsc b => opMatch .rxb ||| placeB b
  | .rxbEof2Eof => opMatch .rxb ||| placeB eofByte
  | .rxbEof2Missing b => opMatch .rxb ||| placeB b
  | .rxbChk0Digit0 b => opMatch .rxb ||| placeB b
  | .rxbChk1Digit1 b => opMatch .rxb ||| placeB b
  | .rxbChk2Digit2 b => opMatch .rxb ||| placeB b
  | .rxbChk3Verified b => opMatch .rxb ||| placeB b
  | .rxbChk3Mismatch b => opMatch .rxb ||| placeB b

end Sys2Proof
end

