-- ==== Sys2Proof/Config.lean ====
section
/-! DEFINITION. What the spec leaves to the builder of a block (00_scope.md R7, R9; 20_memory.md R50).
MAX_PAYLOAD, TXBUF_SIZE and the wire constants are fixed, not parameters (R9): they stand in
Machine/Wire.lean. -/

namespace Sys2Proof

/-- The least RXQ_DEPTH (R7). -/
def Config.rxqDepthMin : Nat := 1

/-- The greatest RXQ_DEPTH: the largest count the 8-bit RXQCNT field reports (R7, R33). -/
def Config.rxqDepthMax : Nat := 255

/-- DESIGN CHOICE (log entry 1, unsafe for statements about `State.reset` alone): the depth of the block
that `State.reset` describes. RXQ_DEPTH is open (R7); 4 is the depth of the spec's own vectors
(95_test_vectors.md). The depth is a field of State, so a statement over all states holds for every depth. -/
def Config.rxqDepthAtReset : Nat := 4

/-- MUP1_BASE, where the operation port sits in a host's address map: open, and read by no rule (R9, R50).
It has no body: no proof can see a value of it (log entry 12, safe). -/
opaque Config.mup1Base : Nat

end Sys2Proof
end

