-- ==== Sys2Proof/Machine/State.lean ====
section
/-! DEFINITION. The state of a block (spec 10_state.md, whole by R34), the traffic on its interfaces
(30_encoding.md R55), the reset state (R30, 70_reset_and_hazards.md R215, R218), and why a step can stop. -/

namespace Sys2Proof.Machine

/-- The nine deframer states (R21). -/
inductive DeframerState where
  | init | sof | data | esc | eof2 | chk0 | chk1 | chk2 | chk3
  deriving DecidableEq, Repr

/-- A frame: a type byte and an unescaped payload (R28). -/
structure Frame where
  type : Byte
  payload : List Byte
  deriving DecidableEq, Repr

/-- The diagnostics (60_exceptions.md R186). Code 0, NONE, is the absence of one. -/
inductive Diag where
  | badData | badEsc | oversize | checksum | eof2Missing | rxqOverflow
  deriving DecidableEq, Repr

/-- What can be presented at the block's inputs (R55). -/
inductive Input where
  /-- A byte on the RX byte input. -/
  | rxByte (b : Byte)
  /-- An operation word on the host operation port. -/
  | hostWord (w : Word)
  /-- The reset input: power-on reset (R215). -/
  | powerOnReset
  deriving DecidableEq, Repr

/-- What the block produces at its outputs (R55). -/
inductive Output where
  /-- One byte on the TX byte output (R68). -/
  | txByte (b : Byte)
  /-- One frame record on the frame output (R190). -/
  | frame (f : Frame)
  /-- One diagnostic event, with the byte that caused it (R186). -/
  | diag (d : Diag) (b : Byte)
  /-- One response word (R57). -/
  | response (w : Word)
  deriving DecidableEq, Repr

/-- The transmit buffer's written cells (R29): address and byte, addresses strictly rising and below 1024.
An address that is not listed is `Unwritten`: it has no value (R42). -/
abbrev Memory := List Host.Cell

/-- The addresses of a list of cells rise strictly from at least `lo` and stay below `hi`. -/
def Memory.risingFrom (lo hi : Nat) : Memory → Bool
  | [] => true
  | (a, _) :: rest => decide (lo ≤ a) && decide (a < hi) && Memory.risingFrom (a + 1) hi rest

/-- The canonical form: strictly rising addresses inside the transmit buffer (R29, R40). No listed entry can
equal what an unlisted address reads as, since that is no byte. -/
def Memory.wf (m : Memory) : Bool := Memory.risingFrom 0 txbufSize m

/-- The state of one block. The fields from `state` to `txbuf` are the spec's record S (R34); `rxqDepth` is
the build parameter (R7); `inputs` and `outputs` are the traffic on the interfaces, the model's own fields
(log entries 2 and 3). -/
structure State where
  /-- The deframer state register (R21). -/
  state : DeframerState
  /-- The pending frame type byte (R22). -/
  type : Byte
  /-- The data buffer: the unescaped payload so far, at most 1024 bytes (R23). -/
  data : List Byte
  /-- The checksum-input buffer: the unescaped frame so far, at most 1028 bytes (R24). -/
  chk : List Byte
  /-- The checksum-digit buffer: the digits so far, at most 4 (R25). -/
  dig : List Byte
  /-- The receive queue, oldest frame first, at most `rxqDepth` frames (R28). -/
  rxq : List Frame
  /-- The transmit buffer (R29). -/
  txbuf : Memory
  /-- RXQ_DEPTH, fixed when the block is built and changed by no operation (R7, R217; log entry 1). -/
  rxqDepth : Nat
  /-- What has been presented at the inputs and not yet been taken, oldest first (R52, R55; log entry 2). -/
  inputs : List Input
  /-- Everything produced at the outputs so far, oldest first (R193, R225; log entry 3). -/
  outputs : List Output
  deriving DecidableEq, Repr

/-- ResetState(RXQ_DEPTH): the state right after power-on reset of a block of the given depth, with nothing
presented and every output empty (R30, R215, R218). -/
def State.resetWith (depth : Nat) : State :=
  { state := .init
    type := 0x00#8
    data := []
    chk := []
    dig := []
    rxq := []
    txbuf := []
    rxqDepth := depth
    inputs := []
    outputs := [] }

/-- The machine right after reset (R215), for the depth that log entry 1 names. -/
def State.reset : State := State.resetWith Config.rxqDepthAtReset

/-- Why the machine stops with a fault (60_exceptions.md R188: there is no other fault). -/
inductive Fault where
  /-- Raised by TXF when it reads a transmit-buffer cell that no TXW has written since power-on reset; `i` is
  the smallest such index (41_encoder.md R118). The hardware sends an unspecified byte and goes on, the model
  stops as R118 and R195 say. SAFE: no false claim can be proved, claims carry the premise 'no fault'
  (log entry 6). -/
  | unwrittenTxbuf (i : Nat)
  deriving DecidableEq, Repr

/-- Why the machine gives an instruction no meaning. -/
inductive Refusal where
  /-- Raised by an arm of `exec` that has no meaning yet. No arm answers it now. SAFE. -/
  | notModelled (mnemonic : String)
  deriving DecidableEq, Repr

/-- The answer of a step or of a meaning. -/
abbrev Outcome := Host.Outcome State Fault Refusal

end Sys2Proof.Machine
end

