-- ==== Sys2Proof/Machine/Flags.lean ====
section
/-! DEFINITION. The block has no condition flags (spec 10_state.md R20). What it has in their place is said
here: the status codes, the diagnostic codes, the response words and their data fields (30_encoding.md R57,
60_exceptions.md R186, R187), the status word (10_state.md R32) and the RXQ_NONEMPTY level (R192). -/

namespace Sys2Proof.Machine

/-- The status of a response (R57). -/
inductive Status where
  | ok | empty | badArg | illegal
  deriving DecidableEq, Repr

/-- The codes of ST. Codes 4 to 15 are never returned (R57). -/
def statusCode : Status → BitVec 4
  | .ok => 0#4
  | .empty => 1#4
  | .badArg => 2#4
  | .illegal => 3#4

/-- The response word: `(st << 28) | data` (R57). -/
def responseWord (st : Status) (data : BitVec 28) : Word :=
  (statusCode st).setWidth 32 <<< 28 ||| data.setWidth 32

/-- The diagnostic codes (R186). Codes 7 to 15 are never produced. -/
def diagCode : Option Diag → BitVec 4
  | none => 0#4
  | some .badData => 1#4
  | some .badEsc => 2#4
  | some .oversize => 3#4
  | some .checksum => 4#4
  | some .eof2Missing => 5#4
  | some .rxqOverflow => 6#4

/-- A one-bit field of a response. -/
def flagBit (f : Bool) : BitVec 28 := if f then 1#28 else 0#28

/-- DATA of an RXB response: DIAG in [7:4], ENQ in [1], FRAME in [0] (R57, R130). -/
def rxbData (diag : Option Diag) (enq frame : Bool) : BitVec 28 :=
  (diagCode diag).setWidth 28 <<< 4 ||| flagBit enq <<< 1 ||| flagBit frame

/-- DATA of a TXF response: COUNT in [11:0] (R57, R116). -/
def txfData (count : Nat) : BitVec 28 := BitVec.ofNat 28 count

/-- DATA of an RQH response: LEN in [26:16], TYPE in [7:0] (R57, R172). -/
def rqhData (f : Frame) : BitVec 28 :=
  BitVec.ofNat 28 f.payload.length <<< 16 ||| f.type.setWidth 28

/-- DATA of an RQB response: BYTE in [7:0] (R57, R174). -/
def rqbData (b : Byte) : BitVec 28 := b.setWidth 28

/-- The codes of the deframer states. The codes 9 to 15 are never held (R21). -/
def deframerCode : DeframerState → BitVec 4
  | .init => 0#4
  | .sof => 1#4
  | .data => 2#4
  | .esc => 3#4
  | .eof2 => 4#4
  | .chk0 => 5#4
  | .chk1 => 6#4
  | .chk2 => 7#4
  | .chk3 => 8#4

/-- The status word: PSTATE in [3:0], DLEN in [14:4], RXQCNT in [23:16], every other bit 0 (R32, R178). -/
def statusWord (s : State) : BitVec 28 :=
  (deframerCode s.state).setWidth 28 ||| BitVec.ofNat 28 s.data.length <<< 4
    ||| BitVec.ofNat 28 s.rxq.length <<< 16

/-- The RXQ_NONEMPTY level output (R192). -/
def State.rxqNonempty (s : State) : Bool := !s.rxq.isEmpty

end Sys2Proof.Machine
end

