-- ==== Sys2Proof/Machine/Ops.lean ====
section
/-! DEFINITION. The named operations over the state that the meanings share: the transmit buffer
(spec 20_memory.md R42), the outputs (00_scope.md R12), the receive queue (10_state.md R28), the resets
(70_reset_and_hazards.md R216) and the block's one trap-like action (60_exceptions.md R194). -/

namespace Sys2Proof.Machine

/-! ## The transmit buffer -/

/-- The byte at an address of the transmit buffer, none where the cell is `Unwritten` (R42). -/
def Memory.read (m : Memory) (a : Nat) : Option Byte :=
  match m with
  | [] => none
  | (k, v) :: rest => if a = k then some v else Memory.read rest a

/-- The transmit buffer with one byte written, in canonical form again (R42). -/
def Memory.write (m : Memory) (a : Nat) (v : Byte) : Memory :=
  match m with
  | [] => [(a, v)]
  | (k, u) :: rest =>
    if a < k then (a, v) :: (k, u) :: rest
    else if a = k then (a, v) :: rest
    else (k, u) :: Memory.write rest a v

/-- MemRead of `n` bytes from address `a`: the bytes in order, or the smallest unwritten address among them
(R42, R116, R118). -/
def Memory.readRange (m : Memory) (a : Nat) : Nat → Except Nat (List Byte)
  | 0 => .ok []
  | n + 1 =>
    match m.read a with
    | none => .error a
    | some b =>
      match m.readRange (a + 1) n with
      | .error i => .error i
      | .ok bs => .ok (b :: bs)

/-- MemWrite(TXBUF, i, 1, v) (R42). -/
def State.writeTxbuf (s : State) (i : Nat) (v : Byte) : State :=
  { s with txbuf := s.txbuf.write i v }

/-! ## Outputs -/

/-- Produce outputs, in order, after everything produced before (R68, R193). -/
def State.emit (s : State) (os : List Output) : State :=
  { s with outputs := s.outputs ++ os }

/-- respond(status, data): the operation's response word (R57). -/
def State.respond (s : State) (st : Status) (data : BitVec 28) : State :=
  s.emit [.response (responseWord st data)]

/-- An operation that answers with a response alone. -/
def answer (s : State) (st : Status) (data : BitVec 28) : Outcome :=
  .next (s.respond st data)

/-! ## The receive queue -/

/-- The receive queue is full (R28, R148). -/
def State.rxqFull (s : State) : Bool := decide (s.rxqDepth ≤ s.rxq.length)

/-- Append a verified frame behind the others (R148). -/
def State.enqueue (s : State) (f : Frame) : State := { s with rxq := s.rxq ++ [f] }

/-- Remove the oldest frame (R176). -/
def State.dequeue (s : State) : State := { s with rxq := s.rxq.tail }

/-! ## Resets -/

/-- ResetParser(): INIT and empty buffers. The type, the queue and the transmit buffer stay (R150). -/
def State.resetParser (s : State) : State :=
  { s with state := .init, data := [], chk := [], dig := [] }

/-- The soft reset of RST: ResetParser, type 0x00, empty queue. The transmit buffer stays (R179, R216). -/
def State.softReset (s : State) : State :=
  { s.resetParser with type := 0x00#8, rxq := [] }

/-- Power-on reset: the state of R30 with every transmit-buffer cell `Unwritten`. It produces no output
(R215; log entry 8). -/
def State.powerOnReset (s : State) : State :=
  { State.resetWith s.rxqDepth with inputs := s.inputs, outputs := s.outputs }

/-! ## What a received byte does -/

/-- The result of the one case of RXB that applies: the state after it and the step's `frame`, `enq` and
`diag` (R130). -/
structure RxEffect where
  next : State
  frame : Option Frame
  enq : Bool
  diag : Option Diag
  deriving DecidableEq, Repr

/-- A case that produces nothing besides its response. -/
def quiet (s : State) : RxEffect := { next := s, frame := none, enq := false, diag := none }

/-- The trap-like action, shared by every framing error: discard the frame in progress, go back to INIT and
produce the diagnostic. It saves no state and has no return (R194, R196). -/
def violation (d : Diag) (s : State) : RxEffect :=
  { next := s.resetParser, frame := none, enq := false, diag := some d }

/-- The end of RXB: the frame, then the diagnostic with the byte that caused it, then the response
(R130, R186, R190, R193). -/
def finishRxb (b : Byte) (e : RxEffect) : Outcome :=
  .next (e.next.emit (e.frame.toList.map .frame ++ e.diag.toList.map (.diag · b) ++
    [.response (responseWord .ok (rxbData e.diag e.enq e.frame.isSome))]))

end Sys2Proof.Machine
end

