-- ==== Sys2Proof/Machine/Control.lean ====
section
/-! DEFINITION. The control operations NOP, STAT and RST (spec 43_queue_control.md R170, R178, R179) and the
words that spell no operation (30_encoding.md R60). -/

namespace Sys2Proof.Machine

/-- NOP (R170). -/
def execNop (s : State) : Outcome := answer s .ok 0#28

/-- STAT: the status word (R178). -/
def execStat (s : State) : Outcome := answer s .ok (statusWord s)

/-- RST: soft reset, with no frame and no diagnostic (R179). -/
def execRst (s : State) : Outcome := answer s.softReset .ok 0#28

/-- The answer to a word that spells no operation: ILLEGAL, and no state is written (R60). -/
def respondIllegal (s : State) : Outcome := answer s .illegal 0#28

/-- OP 0x8 (R60). -/
def execReserved8 (_x : BitVec 28) (s : State) : Outcome := respondIllegal s

/-- OP 0x9 (R60). -/
def execReserved9 (_x : BitVec 28) (s : State) : Outcome := respondIllegal s

/-- OP 0xA (R60). -/
def execReservedA (_x : BitVec 28) (s : State) : Outcome := respondIllegal s

/-- OP 0xB (R60). -/
def execReservedB (_x : BitVec 28) (s : State) : Outcome := respondIllegal s

/-- OP 0xC (R60). -/
def execReservedC (_x : BitVec 28) (s : State) : Outcome := respondIllegal s

/-- OP 0xD (R60). -/
def execReservedD (_x : BitVec 28) (s : State) : Outcome := respondIllegal s

/-- OP 0xE (R60). -/
def execReservedE (_x : BitVec 28) (s : State) : Outcome := respondIllegal s

/-- A word of OP 0x0 to 0x7 or 0xF with a bit set that must be 0 (R59, R60). -/
def execIllegal (_w : Word) (s : State) : Outcome := respondIllegal s

end Sys2Proof.Machine
end

