-- ==== Sys2Proof/Machine/Checksum.lean ====
section
/-! DEFINITION. The checksum, its rendering and the frame encoding, the pure functions the encoder and the
deframer share (spec 40_checksum.md, 41_encoder.md R110 to R113). -/

namespace Sys2Proof.Machine

/-- The exact sum of the list's big-endian 16-bit words. A last byte without a partner is the high byte of a
word whose low byte is 0x00 (R43, R90, R91). -/
def wordSum : List Byte → Nat
  | [] => 0
  | [hi] => hi.toNat * 2 ^ 8
  | hi :: lo :: rest => (hi.toNat * 2 ^ 8 + lo.toNat) + wordSum rest

/-- One fold: `(S & 0xFFFF) + (S >> 16)`. The carry is every bit above bit 15 (R90; log entry 16). -/
def foldCarry (sum : Nat) : Nat := sum % 2 ^ 16 + sum / 2 ^ 16

/-- Checksum: the words' sum, folded twice, complemented and cut to 16 bits (R90). -/
def checksum (bs : List Byte) : BitVec 16 :=
  ~~~ BitVec.ofNat 16 (foldCarry (foldCarry (wordSum bs)))

/-- The ASCII code of a lowercase hexadecimal digit (R93; log entry 13). -/
def hexDigit (n : BitVec 4) : Byte :=
  if n.toNat ≤ 9 then BitVec.ofNat 8 (0x30 + n.toNat) else BitVec.ofNat 8 (0x61 + (n.toNat - 10))

/-- Hex4: four digits, most significant nibble first (R44, R93). -/
def hex4 (c : BitVec 16) : List Byte :=
  [hexDigit (c.extractLsb' 12 4), hexDigit (c.extractLsb' 8 4),
   hexDigit (c.extractLsb' 4 4), hexDigit (c.extractLsb' 0 4)]

/-- The unescaped frame with its EOF padding: the checksum's input (R94). -/
def checksumInput (t : Byte) (p : List Byte) : List Byte :=
  [sofByte, t] ++ p ++ eofPadding p.length

/-- FrameChk (R94). -/
def frameChk (t : Byte) (p : List Byte) : BitVec 16 := checksum (checksumInput t p)

/-- Encode: the bytes of a frame on the wire. The type byte is never escaped (R63, R110 to R113). -/
def encodeFrame (t : Byte) (p : List Byte) : List Byte :=
  [sofByte, t] ++ p.flatMap escapeByte ++ eofPadding p.length ++ hex4 (frameChk t p)

end Sys2Proof.Machine
end

