-- ==== Sys2Proof/Machine/Deframer.lean ====
section
/-! DEFINITION. The deframer (spec 42_deframer.md): the effect of each case R131 to R149, when it applies,
which one a byte meets (R152), and the operation RXB (R130). -/

namespace Sys2Proof.Machine

/-! ## The cases -/

/-- INIT, SOF: start a frame (R131). -/
def rxInitSof (s : State) : RxEffect :=
  quiet { s with state := .sof, data := [], chk := [sofByte], dig := [] }

/-- INIT, any other byte: discard it, with no diagnostic (R132). -/
def rxInitDiscard (s : State) : RxEffect := quiet s

/-- SOF: capture the type byte, whatever it is (R133). -/
def rxSofType (b : Byte) (s : State) : RxEffect :=
  quiet { s with type := b, chk := s.chk ++ [b], state := .data }

/-- DATA, FORBIDDEN (R134). -/
def rxDataForbidden (s : State) : RxEffect := violation .badData s

/-- DATA, ESC: nothing is appended (R135). -/
def rxDataEsc (s : State) : RxEffect := quiet { s with state := .esc }

/-- DATA, EOF, odd payload length: a single EOF (R136). -/
def rxDataEofOdd (s : State) : RxEffect := quiet { s with chk := s.chk ++ [eofByte], state := .chk0 }

/-- DATA, EOF, even payload length: expect a second EOF (R137). -/
def rxDataEofEven (s : State) : RxEffect := quiet { s with chk := s.chk ++ [eofByte], state := .eof2 }

/-- DATA, ORDINARY, room left: append a payload byte (R138). -/
def rxDataAppend (b : Byte) (s : State) : RxEffect :=
  quiet { s with data := s.data ++ [b], chk := s.chk ++ [b] }

/-- DATA, ORDINARY, no room left (R139). -/
def rxDataOversize (s : State) : RxEffect := violation .oversize s

/-- ESC, valid target, room left: append the unescaped byte `v` (R140). -/
def rxEscAppend (v : Byte) (s : State) : RxEffect :=
  quiet { s with data := s.data ++ [v], chk := s.chk ++ [v], state := .data }

/-- ESC, valid target, no room left (R141). -/
def rxEscOversize (s : State) : RxEffect := violation .oversize s

/-- ESC, no valid target (R142). -/
def rxEscBad (s : State) : RxEffect := violation .badEsc s

/-- EOF2, EOF: the second EOF (R143). -/
def rxEof2Eof (s : State) : RxEffect := quiet { s with chk := s.chk ++ [eofByte], state := .chk0 }

/-- EOF2, any other byte (R144). -/
def rxEof2Missing (s : State) : RxEffect := violation .eof2Missing s

/-- CHK0: the first digit, whatever byte it is (R145). -/
def rxChk0 (b : Byte) (s : State) : RxEffect := quiet { s with dig := s.dig ++ [b], state := .chk1 }

/-- CHK1: the second digit (R146). -/
def rxChk1 (b : Byte) (s : State) : RxEffect := quiet { s with dig := s.dig ++ [b], state := .chk2 }

/-- CHK2: the third digit (R147). -/
def rxChk2 (b : Byte) (s : State) : RxEffect := quiet { s with dig := s.dig ++ [b], state := .chk3 }

/-- CHK3, the digits match: deliver the frame, and queue it unless the queue is full (R148). -/
def rxChk3Verified (s : State) : RxEffect :=
  let f : Frame := ⟨s.type, s.data⟩
  if s.rxqFull then
    { next := s.resetParser, frame := some f, enq := false, diag := some .rxqOverflow }
  else
    { next := (s.enqueue f).resetParser, frame := some f, enq := true, diag := none }

/-- CHK3, the digits differ (R149). -/
def rxChk3Mismatch (s : State) : RxEffect := violation .checksum s

/-- The received digits, the byte `b` the last of them, are those of the checksum: compared byte for byte with
its lowercase rendering (R148, R149). -/
def digitsMatch (s : State) (b : Byte) : Bool := s.dig ++ [b] == hex4 (checksum s.chk)

/-! ## Which case applies -/

/-- The cases R131 to R149. -/
inductive RxRule where
  | initSof | initDiscard | sofType
  | dataForbidden | dataEsc | dataEofOdd | dataEofEven | dataAppend | dataOversize
  | escAppend | escOversize | escBad
  | eof2Eof | eof2Missing
  | chk0 | chk1 | chk2 | chk3Verified | chk3Mismatch
  deriving DecidableEq, Repr

/-- Every case, in the order of its rules. -/
def rxRules : List RxRule :=
  [.initSof, .initDiscard, .sofType,
   .dataForbidden, .dataEsc, .dataEofOdd, .dataEofEven, .dataAppend, .dataOversize,
   .escAppend, .escOversize, .escBad,
   .eof2Eof, .eof2Missing,
   .chk0, .chk1, .chk2, .chk3Verified, .chk3Mismatch]

/-- The condition of each case, as its rule and its rows of opcode_table.json state it. -/
def rxRuleApplies (r : RxRule) (b : Byte) (s : State) : Bool :=
  match r with
  | .initSof => s.state == .init && b == sofByte
  | .initDiscard => s.state == .init && b != sofByte
  | .sofType => s.state == .sof
  | .dataForbidden => s.state == .data && isForbidden b
  | .dataEsc => s.state == .data && b == escByte
  | .dataEofOdd => s.state == .data && b == eofByte && s.data.length % 2 == 1
  | .dataEofEven => s.state == .data && b == eofByte && s.data.length % 2 == 0
  | .dataAppend => s.state == .data && isOrdinary b && decide (s.data.length < maxPayload)
  | .dataOversize => s.state == .data && isOrdinary b && decide (s.data.length = maxPayload)
  | .escAppend => s.state == .esc && isTarget b && decide (s.data.length < maxPayload)
  | .escOversize => s.state == .esc && isTarget b && decide (s.data.length = maxPayload)
  | .escBad => s.state == .esc && !isTarget b
  | .eof2Eof => s.state == .eof2 && b == eofByte
  | .eof2Missing => s.state == .eof2 && b != eofByte
  | .chk0 => s.state == .chk0
  | .chk1 => s.state == .chk1
  | .chk2 => s.state == .chk2
  | .chk3Verified => s.state == .chk3 && digitsMatch s b
  | .chk3Mismatch => s.state == .chk3 && !digitsMatch s b

/-- The case a byte meets (the table of R152). In DATA and ESC the byte's class is tested before the length
(R193). A payload longer than 1024 bytes, which no run reaches, counts as one of 1024 (log entry 7). -/
def rxRuleOf (b : Byte) (s : State) : RxRule :=
  match s.state with
  | .init => if b == sofByte then .initSof else .initDiscard
  | .sof => .sofType
  | .data =>
    if isForbidden b then .dataForbidden
    else if b == escByte then .dataEsc
    else if b == eofByte then (if s.data.length % 2 = 1 then .dataEofOdd else .dataEofEven)
    else if s.data.length < maxPayload then .dataAppend
    else .dataOversize
  | .esc =>
    if isTarget b then (if s.data.length < maxPayload then .escAppend else .escOversize)
    else .escBad
  | .eof2 => if b == eofByte then .eof2Eof else .eof2Missing
  | .chk0 => .chk0
  | .chk1 => .chk1
  | .chk2 => .chk2
  | .chk3 => if digitsMatch s b then .chk3Verified else .chk3Mismatch

/-- The effect of a case. `(unescape b).getD b` is the byte of R96: `escAppend` applies to valid targets
only. -/
def rxRuleEffect (r : RxRule) (b : Byte) (s : State) : RxEffect :=
  match r with
  | .initSof => rxInitSof s
  | .initDiscard => rxInitDiscard s
  | .sofType => rxSofType b s
  | .dataForbidden => rxDataForbidden s
  | .dataEsc => rxDataEsc s
  | .dataEofOdd => rxDataEofOdd s
  | .dataEofEven => rxDataEofEven s
  | .dataAppend => rxDataAppend b s
  | .dataOversize => rxDataOversize s
  | .escAppend => rxEscAppend ((unescape b).getD b) s
  | .escOversize => rxEscOversize s
  | .escBad => rxEscBad s
  | .eof2Eof => rxEof2Eof s
  | .eof2Missing => rxEof2Missing s
  | .chk0 => rxChk0 b s
  | .chk1 => rxChk1 b s
  | .chk2 => rxChk2 b s
  | .chk3Verified => rxChk3Verified s
  | .chk3Mismatch => rxChk3Mismatch s

/-! ## The operation -/

/-- RXB: the one case that applies, then its outputs and the response (R130). -/
def execRxb (b : Byte) (s : State) : Outcome := finishRxb b (rxRuleEffect (rxRuleOf b s) b s)

/-- A row `RXB@STATE:CASE`: in a state where the row's condition holds, the row's case. In any other state its
word is an RXB all the same, and the case that applies there is taken (R130, R152; log entry 4). -/
def rxbRow (r : RxRule) (b : Byte) (s : State) : Outcome :=
  if rxRuleApplies r b s then finishRxb b (rxRuleEffect r b s) else execRxb b s

end Sys2Proof.Machine
end

