-- ==== Sys2Proof/Machine/Encoder.lean ====
section
/-! DEFINITION. The two operations that drive the encoder, TXW and TXF (spec 41_encoder.md R115 to R118). -/

namespace Sys2Proof.Machine

/-- TXW: write one transmit-buffer byte; BADARG past the last cell (R115). -/
def execTxw (n : Index) (b : Byte) (s : State) : Outcome :=
  if txbufSize ≤ n.toNat then answer s .badArg 0#28
  else answer (s.writeTxbuf n.toNat b) .ok 0#28

/-- TXF: encode and send one frame; BADARG above MAX_PAYLOAD, before the fault on an unwritten cell
(R116, R117, R118, R193). -/
def execTxf (n : Index) (t : Byte) (s : State) : Outcome :=
  if maxPayload < n.toNat then answer s .badArg 0#28
  else
    match s.txbuf.readRange 0 n.toNat with
    | .error i => .fault (.unwrittenTxbuf i)
    | .ok p =>
      answer (s.emit ((encodeFrame t p).map .txByte)) .ok (txfData (encodeFrame t p).length)

end Sys2Proof.Machine
end

