-- ==== Sys2Proof/Machine/Queue.lean ====
section
/-! DEFINITION. The queue operations RQH, RQB and RQP (spec 43_queue_control.md R171 to R176). -/

namespace Sys2Proof.Machine

/-- RQH: the head frame's length and type; EMPTY when there is none (R172). -/
def execRqh (s : State) : Outcome :=
  match s.rxq with
  | [] => answer s .empty 0#28
  | f :: _ => answer s .ok (rqhData f)

/-- RQB: one payload byte of the head frame; EMPTY is checked before BADARG (R174, R193). -/
def execRqb (n : Index) (s : State) : Outcome :=
  match s.rxq with
  | [] => answer s .empty 0#28
  | f :: _ =>
    match f.payload[n.toNat]? with
    | none => answer s .badArg 0#28
    | some b => answer s .ok (rqbData b)

/-- RQP: remove the head frame; EMPTY when there is none (R176). -/
def execRqp (s : State) : Outcome :=
  match s.rxq with
  | [] => answer s .empty 0#28
  | _ :: _ => answer s.dequeue .ok 0#28

end Sys2Proof.Machine
end

