-- ==== Sys2Proof/Machine/RxbRows.lean ====
section
/-! DEFINITION. The meanings of the 29 rows `RXB@STATE:CASE` of opcode_table.json: each names its case of
RXB and its byte, over the shared operation `rxbRow` (spec 42_deframer.md R130 to R149). -/

namespace Sys2Proof.Machine

/-- RXB@INIT:SOF (R131). -/
def execRxbInitSof (s : State) : Outcome := rxbRow .initSof sofByte s

/-- RXB@INIT:DISCARD (R132). -/
def execRxbInitDiscard (b : Byte) (s : State) : Outcome := rxbRow .initDiscard b s

/-- RXB@SOF:TYPE (R133). -/
def execRxbSofType (b : Byte) (s : State) : Outcome := rxbRow .sofType b s

/-- RXB@DATA:BAD_DATA_3E (R134). -/
def execRxbDataBadData3E (s : State) : Outcome := rxbRow .dataForbidden sofByte s

/-- RXB@DATA:BAD_DATA_00 (R134). -/
def execRxbDataBadData00 (s : State) : Outcome := rxbRow .dataForbidden zeroByte s

/-- RXB@DATA:BAD_DATA_FF (R134). -/
def execRxbDataBadDataFF (s : State) : Outcome := rxbRow .dataForbidden onesByte s

/-- RXB@DATA:ESC (R135). -/
def execRxbDataEsc (s : State) : Outcome := rxbRow .dataEsc escByte s

/-- RXB@DATA:EOF_ODD (R136). -/
def execRxbDataEofOdd (s : State) : Outcome := rxbRow .dataEofOdd eofByte s

/-- RXB@DATA:EOF_EVEN (R137). -/
def execRxbDataEofEven (s : State) : Outcome := rxbRow .dataEofEven eofByte s

/-- RXB@DATA:APPEND (R138). -/
def execRxbDataAppend (b : Byte) (s : State) : Outcome := rxbRow .dataAppend b s

/-- RXB@DATA:OVERSIZE (R139). -/
def execRxbDataOversize (b : Byte) (s : State) : Outcome := rxbRow .dataOversize b s

/-- RXB@ESC:TARGET_3E (R140). -/
def execRxbEscTarget3E (s : State) : Outcome := rxbRow .escAppend sofByte s

/-- RXB@ESC:TARGET_3E_OVERSIZE (R141). -/
def execRxbEscTarget3EOversize (s : State) : Outcome := rxbRow .escOversize sofByte s

/-- RXB@ESC:TARGET_3C (R140). -/
def execRxbEscTarget3C (s : State) : Outcome := rxbRow .escAppend eofByte s

/-- RXB@ESC:TARGET_3C_OVERSIZE (R141). -/
def execRxbEscTarget3COversize (s : State) : Outcome := rxbRow .escOversize eofByte s

/-- RXB@ESC:TARGET_5C (R140). -/
def execRxbEscTarget5C (s : State) : Outcome := rxbRow .escAppend escByte s

/-- RXB@ESC:TARGET_5C_OVERSIZE (R141). -/
def execRxbEscTarget5COversize (s : State) : Outcome := rxbRow .escOversize escByte s

/-- RXB@ESC:TARGET_30 (R140). -/
def execRxbEscTarget30 (s : State) : Outcome := rxbRow .escAppend zeroTarget s

/-- RXB@ESC:TARGET_30_OVERSIZE (R141). -/
def execRxbEscTarget30Oversize (s : State) : Outcome := rxbRow .escOversize zeroTarget s

/-- RXB@ESC:TARGET_46 (R140). -/
def execRxbEscTarget46 (s : State) : Outcome := rxbRow .escAppend onesTarget s

/-- RXB@ESC:TARGET_46_OVERSIZE (R141). -/
def execRxbEscTarget46Oversize (s : State) : Outcome := rxbRow .escOversize onesTarget s

/-- RXB@ESC:BAD_ESC (R142). -/
def execRxbEscBadEsc (b : Byte) (s : State) : Outcome := rxbRow .escBad b s

/-- RXB@EOF2:EOF (R143). -/
def execRxbEof2Eof (s : State) : Outcome := rxbRow .eof2Eof eofByte s

/-- RXB@EOF2:EOF2_MISSING (R144). -/
def execRxbEof2Missing (b : Byte) (s : State) : Outcome := rxbRow .eof2Missing b s

/-- RXB@CHK0:DIGIT0 (R145). -/
def execRxbChk0Digit0 (b : Byte) (s : State) : Outcome := rxbRow .chk0 b s

/-- RXB@CHK1:DIGIT1 (R146). -/
def execRxbChk1Digit1 (b : Byte) (s : State) : Outcome := rxbRow .chk1 b s

/-- RXB@CHK2:DIGIT2 (R147). -/
def execRxbChk2Digit2 (b : Byte) (s : State) : Outcome := rxbRow .chk2 b s

/-- RXB@CHK3:VERIFIED (R148). -/
def execRxbChk3Verified (b : Byte) (s : State) : Outcome := rxbRow .chk3Verified b s

/-- RXB@CHK3:MISMATCH (R149). -/
def execRxbChk3Mismatch (b : Byte) (s : State) : Outcome := rxbRow .chk3Mismatch b s

end Sys2Proof.Machine
end

