-- ==== Sys2Proof/Machine/Dispatch.lean ====
section
/-! DEFINITION. One arm per row of spec/opcode_table.json: a direct call of the row's meaning. -/

namespace Sys2Proof.Machine

def exec (i : Instr) (s : State) : Host.Outcome State Fault Refusal :=
  match i with
  | .nop => Sys2Proof.Machine.execNop s
  | .rxb b => Sys2Proof.Machine.execRxb b s
  | .txw n b => Sys2Proof.Machine.execTxw n b s
  | .txf n t => Sys2Proof.Machine.execTxf n t s
  | .rqh => Sys2Proof.Machine.execRqh s
  | .rqb n => Sys2Proof.Machine.execRqb n s
  | .rqp => Sys2Proof.Machine.execRqp s
  | .stat => Sys2Proof.Machine.execStat s
  | .rst => Sys2Proof.Machine.execRst s
  | .reserved8 x => Sys2Proof.Machine.execReserved8 x s
  | .reserved9 x => Sys2Proof.Machine.execReserved9 x s
  | .reservedA x => Sys2Proof.Machine.execReservedA x s
  | .reservedB x => Sys2Proof.Machine.execReservedB x s
  | .reservedC x => Sys2Proof.Machine.execReservedC x s
  | .reservedD x => Sys2Proof.Machine.execReservedD x s
  | .reservedE x => Sys2Proof.Machine.execReservedE x s
  | .illegal w => Sys2Proof.Machine.execIllegal w s
  | .rxbInitSof => Sys2Proof.Machine.execRxbInitSof s
  | .rxbInitDiscard b => Sys2Proof.Machine.execRxbInitDiscard b s
  | .rxbSofType b => Sys2Proof.Machine.execRxbSofType b s
  | .rxbDataBadData3E => Sys2Proof.Machine.execRxbDataBadData3E s
  | .rxbDataBadData00 => Sys2Proof.Machine.execRxbDataBadData00 s
  | .rxbDataBadDataFF => Sys2Proof.Machine.execRxbDataBadDataFF s
  | .rxbDataEsc => Sys2Proof.Machine.execRxbDataEsc s
  | .rxbDataEofOdd => Sys2Proof.Machine.execRxbDataEofOdd s
  | .rxbDataEofEven => Sys2Proof.Machine.execRxbDataEofEven s
  | .rxbDataAppend b => Sys2Proof.Machine.execRxbDataAppend b s
  | .rxbDataOversize b => Sys2Proof.Machine.execRxbDataOversize b s
  | .rxbEscTarget3E => Sys2Proof.Machine.execRxbEscTarget3E s
  | .rxbEscTarget3EOversize => Sys2Proof.Machine.execRxbEscTarget3EOversize s
  | .rxbEscTarget3C => Sys2Proof.Machine.execRxbEscTarget3C s
  | .rxbEscTarget3COversize => Sys2Proof.Machine.execRxbEscTarget3COversize s
  | .rxbEscTarget5C => Sys2Proof.Machine.execRxbEscTarget5C s
  | .rxbEscTarget5COversize => Sys2Proof.Machine.execRxbEscTarget5COversize s
  | .rxbEscTarget30 => Sys2Proof.Machine.execRxbEscTarget30 s
  | .rxbEscTarget30Oversize => Sys2Proof.Machine.execRxbEscTarget30Oversize s
  | .rxbEscTarget46 => Sys2Proof.Machine.execRxbEscTarget46 s
  | .rxbEscTarget46Oversize => Sys2Proof.Machine.execRxbEscTarget46Oversize s
  | .rxbEscBadEsc b => Sys2Proof.Machine.execRxbEscBadEsc b s
  | .rxbEof2Eof => Sys2Proof.Machine.execRxbEof2Eof s
  | .rxbEof2Missing b => Sys2Proof.Machine.execRxbEof2Missing b s
  | .rxbChk0Digit0 b => Sys2Proof.Machine.execRxbChk0Digit0 b s
  | .rxbChk1Digit1 b => Sys2Proof.Machine.execRxbChk1Digit1 b s
  | .rxbChk2Digit2 b => Sys2Proof.Machine.execRxbChk2Digit2 b s
  | .rxbChk3Verified b => Sys2Proof.Machine.execRxbChk3Verified b s
  | .rxbChk3Mismatch b => Sys2Proof.Machine.execRxbChk3Mismatch b s

end Sys2Proof.Machine
end

