-- ==== Sys2Proof/Machine/Port.lean ====
section
/-! DEFINITION. Taking what is presented at the inputs (spec 30_encoding.md R55, 20_memory.md R52). The block
fetches no instructions (R54): an operation comes from the RX byte input or from the host operation port,
and both make one sequence. -/

namespace Sys2Proof.Machine

/-- What the block finds at its inputs. -/
inductive Presented where
  /-- Nothing. -/
  | nothing
  /-- The reset input; `s` is the state with it taken from the inputs. -/
  | reset (s : State)
  /-- An operation word; `s` is the state with it taken from the inputs. -/
  | word (w : Word) (s : State)
  deriving DecidableEq, Repr

/-- The operation word of a received byte: RXB with B = b, the word 0x100000bb (R55). -/
def rxWord (b : Byte) : Word := opMatch .rxb ||| placeB b

/-- Take the oldest input (R52). -/
def present (s : State) : Presented :=
  match s.inputs with
  | [] => .nothing
  | .powerOnReset :: rest => .reset { s with inputs := rest }
  | .rxByte b :: rest => .word (rxWord b) { s with inputs := rest }
  | .hostWord w :: rest => .word w { s with inputs := rest }

/-- The state with an operation word presented before everything else, so that the next step takes it. -/
def State.presentWord (s : State) (w : Word) : State :=
  { s with inputs := .hostWord w :: s.inputs }

end Sys2Proof.Machine
end

