-- ==== Sys2Proof/Machine/Step.lean ====
section
/-! DEFINITION. One step: one operation, taken whole (spec 00_scope.md R12, 20_memory.md R48, R52). With
nothing presented the block holds its state (60_exceptions.md R203; log entry 2). -/

namespace Sys2Proof.Machine

def step (s : State) : Host.Outcome State Fault Refusal :=
  match present s with
  | .nothing => .next s
  | .reset s' => .next s'.powerOnReset
  | .word w s' => exec (decode w) s'

/-- The word of an instruction of the opcode table's numbering, placed where the next step takes it: on the
host operation port (log entries 2 and 9). -/
def State.withFetchWord (s : State) (nbits w : Nat) : State :=
  s.presentWord (BitVec.ofNat 32 (w % 2 ^ nbits))

end Sys2Proof.Machine
end

