-- ==== Sys2Proof/Safety.lean ====
section
/-! DEFINITION. What counts as a good state and a safe run, in the terms the statements use: the invariant of
the spec (10_state.md R23 to R29, R26; 00_scope.md R7) and the premise 'no fault' of 60_exceptions.md R195. -/

namespace Sys2Proof.Machine

/-- The unescaped frame so far without its EOF padding: SOF, the type, the payload (R26). -/
def State.frameSoFar (s : State) : List Byte := [sofByte, s.type] ++ s.data

/-- The table of R26: what the deframer's buffers hold in each state. -/
abbrev State.ParserInv (s : State) : Prop :=
  s.data.length ≤ maxPayload ∧
  (s.state = .init → s.data = [] ∧ s.chk = [] ∧ s.dig = []) ∧
  (s.state = .sof → s.data = [] ∧ s.chk = [sofByte] ∧ s.dig = []) ∧
  (s.state = .data ∨ s.state = .esc → s.chk = s.frameSoFar ∧ s.dig = []) ∧
  (s.state = .eof2 → s.data.length % 2 = 0 ∧ s.chk = s.frameSoFar ++ [eofByte] ∧ s.dig = []) ∧
  (s.state = .chk0 → s.chk = s.frameSoFar ++ eofPadding s.data.length ∧ s.dig = []) ∧
  (s.state = .chk1 → s.chk = s.frameSoFar ++ eofPadding s.data.length ∧ s.dig.length = 1) ∧
  (s.state = .chk2 → s.chk = s.frameSoFar ++ eofPadding s.data.length ∧ s.dig.length = 2) ∧
  (s.state = .chk3 → s.chk = s.frameSoFar ++ eofPadding s.data.length ∧ s.dig.length = 3)

/-- The queue holds at most RXQ_DEPTH frames, each with a payload a frame may have (R28). -/
abbrev State.QueueInv (s : State) : Prop :=
  s.rxq.length ≤ s.rxqDepth ∧ ∀ f ∈ s.rxq, f.payload.length ≤ maxPayload

/-- RXQ_DEPTH is a depth a block may be built with (R7). -/
abbrev State.DepthInv (s : State) : Prop :=
  Config.rxqDepthMin ≤ s.rxqDepth ∧ s.rxqDepth ≤ Config.rxqDepthMax

/-- The invariant of a block: the parser's table, the queue's bound, the depth's range and the canonical form
of the transmit buffer. -/
abbrev State.Inv (s : State) : Prop :=
  s.ParserInv ∧ s.QueueInv ∧ s.DepthInv ∧ s.txbuf.wf = true

/-- The first `n` cells of the transmit buffer hold the payload `p`: what a host does before a TXF of length
`n` (R217). -/
abbrev State.Staged (s : State) (p : List Byte) : Prop :=
  ∀ i, (h : i < p.length) → s.txbuf.read i = some p[i]

/-- `k` steps of the machine, stopping at a fault: a claim about a run has the premise that it answers a next
state (R195, R225). -/
def runSteps (k : Nat) (s : State) : Outcome := Host.Core.run Sys2Proof.core k s

/-- Every frame the state of a run has delivered on the frame output, in order (R190, R225). -/
def State.framesOut (s : State) : List Frame :=
  s.outputs.filterMap fun o => match o with
    | .frame f => some f
    | .txByte _ => none
    | .diag _ _ => none
    | .response _ => none

/-- Every byte sent on the TX byte output, in order (R68, R225). -/
def State.txOut (s : State) : List Byte :=
  s.outputs.filterMap fun o => match o with
    | .txByte b => some b
    | .frame _ => none
    | .diag _ _ => none
    | .response _ => none

/-- Every diagnostic event, in order (R186, R225). -/
def State.diagsOut (s : State) : List (Diag × Byte) :=
  s.outputs.filterMap fun o => match o with
    | .diag d b => some (d, b)
    | .txByte _ => none
    | .frame _ => none
    | .response _ => none

/-- Every response word, in order (R57, R225). -/
def State.responsesOut (s : State) : List Word :=
  s.outputs.filterMap fun o => match o with
    | .response w => some w
    | .txByte _ => none
    | .frame _ => none
    | .diag _ _ => none

end Sys2Proof.Machine
end

