-- ==== Sys2Proof/Certificates/Slice0/Obligations.lean ====
section
/-! DEFINITION. The statements for the provers, from the numbered rules of the spec. Byte values, words and
codes are written as the spec's numbers, not as the model's names for them. A next state is written as an
update of the state before: every field that is not named is unchanged. -/

open Sys2Proof Sys2Proof.Machine

/-! ## Words and operations -/

/-- R58, R59, R61: the word of a well-formed instruction decodes to the operation it spells, every operand at
every value. A row of RXB spells RXB of its byte (log entry 4), and the illegal constructors carry the bits
their words leave free (log entry 5); both are the model's choice. -/
def Obligations.DecodeOfEncodeIsTheOperation : Prop :=
  ∀ i : Instr, i.wf = true → decode (encode i) = i.operation

/-- R59: decoding drops no bit of any of the 2^32 words, and answers a well-formed instruction. For reserved
and illegal words that is the model's choice, since their constructors carry the word's bits (log entry 5). For
words of OP 0x5 with a bit of [15:8] set it rests on reading them as ILLEGAL (log entry 14, DEDUCED): under the
mask R58 prints they would be RQB and lose those bits. -/
def Obligations.EncodeOfDecodeIsTheWord : Prop :=
  ∀ w : Word, encode (decode w) = w ∧ (decode w).wf = true

/-- R59, R60: which words are illegal. OP 0x8 to 0xE with any other bits; OP 0x0 to 0x7 or 0xF exactly when a
bit is set that must be 0: bit 27 or bits [15:8] for any operation, N for NOP, RXB, RQH, RQP, STAT and RST, B
for NOP, RQH, RQB, RQP, STAT and RST. For RQB and bits [15:8] the spec's text decides against the mask it
prints (log entry 14). -/
def Obligations.IllegalWordsAreThoseWithAForbiddenBit : Prop :=
  ∀ w : Word,
    ((decode w).isIllegal = true ↔
      (8 ≤ (w.extractLsb' 28 4).toNat ∧ (w.extractLsb' 28 4).toNat ≤ 14) ∨
      w.getLsbD 27 = true ∨
      w.extractLsb' 8 8 ≠ 0#8 ∨
      (w.extractLsb' 16 11 ≠ 0#11 ∧ (w.extractLsb' 28 4).toNat ∈ [0, 1, 4, 6, 7, 15]) ∨
      (w.extractLsb' 0 8 ≠ 0#8 ∧ (w.extractLsb' 28 4).toNat ∈ [0, 4, 5, 6, 7, 15]))

/-- R58: the rows of the operation map are disjoint, so a word selects at most one. -/
def Obligations.AWordSelectsAtMostOneRow : Prop :=
  ∀ (w : Word) (o o' : OpCode), opSelects o w = true → opSelects o' w = true → o = o'

/-- Words of the spec's vectors (95_test_vectors.md, sections 1, 3 and 6) decode to what they stand for. -/
def Obligations.WordsOfTheVectorsDecode : Prop :=
  decode 0x30000070#32 = .txf 0#11 0x70#8 ∧
  decode 0x20090004#32 = .txw 9#11 0x04#8 ∧
  decode 0x23FF0041#32 = .txw 1023#11 0x41#8 ∧
  decode 0x1000005C#32 = .rxb 0x5C#8 ∧
  decode 0x50040000#32 = .rqb 4#11 ∧
  decode 0xF0000000#32 = .rst ∧
  decode 0x80000000#32 = .reserved8 0#28 ∧
  decode 0x10010041#32 = .illegal 0x10010041#32

/-- R60: a word that matches no row of R58 (matches and masks as R58 prints them) answers 0x30000000 and
writes no state, and so does every constructor that stands for such words. Which further words of OP 0x5 are
illegal is `IllegalWordsAreThoseWithAForbiddenBit` (log entry 14). -/
def Obligations.IllegalOperationsChangeNothing : Prop :=
  ∀ (s : State) (x : BitVec 28) (w : Word),
    (∀ i ∈ [Instr.reserved8 x, .reserved9 x, .reservedA x, .reservedB x, .reservedC x, .reservedD x,
        .reservedE x, .illegal w],
      exec i s = .next { s with outputs := s.outputs ++ [.response 0x30000000#32] }) ∧
    ((∀ row ∈ [(0x00000000#32, 0xFFFFFFFF#32), (0x10000000#32, 0xFFFFFF00#32),
        (0x20000000#32, 0xF800FF00#32), (0x30000000#32, 0xF800FF00#32), (0x40000000#32, 0xFFFFFFFF#32),
        (0x50000000#32, 0xF80000FF#32), (0x60000000#32, 0xFFFFFFFF#32), (0x70000000#32, 0xFFFFFFFF#32),
        (0xF0000000#32, 0xFFFFFFFF#32)], w &&& row.2 ≠ row.1) →
      exec (decode w) s = .next { s with outputs := s.outputs ++ [.response 0x30000000#32] })

/-! ## Steps and resets -/

/-- R52, R55: a step takes the oldest input and runs the operation it decodes to, whole, on the state with
that input taken. A received byte is RXB of that byte. That the inputs wait in a list of State, one taken by
each step, is the model's form of R52's order (log entry 2). -/
def Obligations.AStepRunsThePresentedOperation : Prop :=
  ∀ (s : State) (rest : List Input),
    (∀ w i, s.inputs = .hostWord w :: rest → decode w = i → step s = exec i { s with inputs := rest }) ∧
    (∀ b, s.inputs = .rxByte b :: rest → step s = exec (.rxb b) { s with inputs := rest })

/-- R203: with nothing presented the block holds its state (that a step may be taken then is the model's
choice, log entry 2). -/
def Obligations.WithNothingPresentedTheStateHolds : Prop :=
  ∀ s : State, s.inputs = [] → step s = .next s

/-- R215: power-on reset, and what RXQ_NONEMPTY and STAT say after it. That the depth, the inputs not yet
taken and the trace of earlier outputs are kept is read from R217 and R215 by inference (log entry 8,
DEDUCED). -/
def Obligations.PowerOnResetLeavesTheResetState : Prop :=
  ∀ (s : State) (rest : List Input), s.inputs = .powerOnReset :: rest →
    ∃ t, step s = .next t ∧
      t.state = .init ∧ t.type = 0x00#8 ∧ t.data = [] ∧ t.chk = [] ∧ t.dig = [] ∧ t.rxq = [] ∧
      (∀ a, t.txbuf.read a = none) ∧
      t.rxqDepth = s.rxqDepth ∧ t.inputs = rest ∧ t.outputs = s.outputs ∧
      t.rxqNonempty = false ∧
      exec .stat t = .next { t with outputs := t.outputs ++ [.response 0x00000000#32] }

/-- R30, R218: the launch state of a block of any depth; `State.reset` is the launch state of some depth a
block may have (which one is the model's choice, log entry 1). -/
def Obligations.ResetStateIsTheLaunchState : Prop :=
  (∀ d : Nat, (State.resetWith d).state = .init ∧ (State.resetWith d).type = 0x00#8 ∧
    (State.resetWith d).data = [] ∧ (State.resetWith d).chk = [] ∧ (State.resetWith d).dig = [] ∧
    (State.resetWith d).rxq = [] ∧ (∀ a, (State.resetWith d).txbuf.read a = none) ∧
    (State.resetWith d).rxqDepth = d ∧ (State.resetWith d).outputs = []) ∧
  (∃ d : Nat, 1 ≤ d ∧ d ≤ 255 ∧ State.reset = State.resetWith d)

/-- R26, R28, R7: the invariant holds in the launch state of every depth a block may have. -/
def Obligations.InvariantHoldsAtReset : Prop :=
  State.reset.Inv ∧ ∀ d : Nat, 1 ≤ d → d ≤ 255 → (State.resetWith d).Inv

/-- R23, R24, R25, R26, R28: every step, whatever is presented, keeps the invariant. -/
def Obligations.EveryStepKeepsTheInvariant : Prop :=
  ∀ s t : State, s.Inv → step s = .next t → t.Inv

/-- R23, R24, R25, R28, R29, R33: under the invariant the data buffer holds at most 1024 bytes, the
checksum-input buffer at most 1028, the digit buffer at most 4, the queue at most 255 frames, and the transmit
buffer at most 1024 cells, none of them at an address of 1024 or more. -/
def Obligations.InvariantBoundsTheBuffers : Prop :=
  ∀ s : State, s.Inv → s.data.length ≤ 1024 ∧ s.chk.length ≤ 1028 ∧ s.dig.length ≤ 4 ∧ s.rxq.length ≤ 255 ∧
    s.txbuf.length ≤ 1024 ∧ ∀ a, 1024 ≤ a → s.txbuf.read a = none

/-! ## The encoder -/

/-- R115: TXW writes one cell and nothing else; past the last cell it answers BADARG and writes nothing. -/
def Obligations.TxwWritesOneCell : Prop :=
  (∀ w : Word, w &&& 0xF800FF00#32 = 0x20000000#32 →
    decode w = .txw (w.extractLsb' 16 11) (w.extractLsb' 0 8)) ∧
  ∀ (n : Index) (b : Byte) (s : State),
    (1024 ≤ n.toNat →
      exec (.txw n b) s = .next { s with outputs := s.outputs ++ [.response 0x20000000#32] }) ∧
    (n.toNat < 1024 →
      ∃ m, exec (.txw n b) s =
          .next { s with txbuf := m, outputs := s.outputs ++ [.response 0x00000000#32] } ∧
        m.read n.toNat = some b ∧ ∀ a, a ≠ n.toNat → m.read a = s.txbuf.read a)

/-- R116, R117: TXF sends the frame of the first `n` cells and answers with the number of bytes sent; above
1024 it sends nothing; over an unwritten cell it faults at the smallest one (R118; log entry 6, DEDUCED: the
hardware goes on with an unspecified byte). -/
def Obligations.TxfSendsTheStagedFrame : Prop :=
  (∀ w : Word, w &&& 0xF800FF00#32 = 0x30000000#32 →
    decode w = .txf (w.extractLsb' 16 11) (w.extractLsb' 0 8)) ∧
  ∀ (n : Index) (t : Byte) (s : State),
    (1024 < n.toNat →
      exec (.txf n t) s = .next { s with outputs := s.outputs ++ [.response 0x20000000#32] }) ∧
    (∀ p : List Byte, n.toNat ≤ 1024 → p.length = n.toNat →
      (∀ i, (h : i < p.length) → s.txbuf.read i = some p[i]) →
      exec (.txf n t) s = .next { s with outputs := s.outputs ++ (encodeFrame t p).map .txByte ++
        [.response (BitVec.ofNat 32 (encodeFrame t p).length)] }) ∧
    (∀ i, n.toNat ≤ 1024 → i < n.toNat → s.txbuf.read i = none →
      (∀ j, j < i → s.txbuf.read j ≠ none) → exec (.txf n t) s = .fault (.unwrittenTxbuf i))

/-- R110, R111, R112, R113: the bytes of a frame. -/
def Obligations.EncodeFollowsTheWireFormat : Prop :=
  ∀ (t : Byte) (p : List Byte),
    encodeFrame t p =
      [0x3E#8, t] ++
      (p.map fun b =>
        if b = 0x3E#8 then [0x5C#8, 0x3E#8] else if b = 0x3C#8 then [0x5C#8, 0x3C#8]
        else if b = 0x5C#8 then [0x5C#8, 0x5C#8] else if b = 0x00#8 then [0x5C#8, 0x30#8]
        else if b = 0xFF#8 then [0x5C#8, 0x46#8] else [b]).flatten ++
      (if p.length % 2 = 0 then [0x3C#8, 0x3C#8] else [0x3C#8]) ++
      hex4 (checksum ([0x3E#8, t] ++ p ++ (if p.length % 2 = 0 then [0x3C#8, 0x3C#8] else [0x3C#8])))

/-- R114: the length of an encoded frame, and what its bytes after the first two may be: 0x00 and 0xFF never,
and in the escaped payload 0x3E and 0x3C only right after 0x5C. -/
def Obligations.EncodedFramesHaveBoundedLengthAndAlphabet : Prop :=
  ∀ (t : Byte) (p : List Byte), p.length ≤ 1024 →
    (encodeFrame t p).length = 2 + p.length +
        p.countP (fun b => b ∈ [0x3E#8, 0x3C#8, 0x5C#8, 0x00#8, 0xFF#8]) +
        (if p.length % 2 = 0 then 2 else 1) + 4 ∧
    8 ≤ (encodeFrame t p).length ∧ (encodeFrame t p).length ≤ 2056 ∧
    (∀ b ∈ (encodeFrame t p).drop 2, b ≠ 0x00#8 ∧ b ≠ 0xFF#8) ∧
    (∀ i b, (p.flatMap escapeByte)[i]? = some b → b = 0x3E#8 ∨ b = 0x3C#8 →
      0 < i ∧ (p.flatMap escapeByte)[i - 1]? = some 0x5C#8)

/-! ## The checksum -/

/-- R90, R91: the checksum as the spec's loop computes it, a missing low byte taken as 0x00. -/
def Obligations.ChecksumIsTheFoldedWordSum : Prop :=
  ∀ bs : List Byte,
    let sum := ((List.range ((bs.length + 1) / 2)).map fun k =>
      (bs.getD (2 * k) 0#8).toNat * 256 + (bs.getD (2 * k + 1) 0#8).toNat).sum
    let once := sum % 65536 + sum / 65536
    let twice := once % 65536 + once / 65536
    checksum bs = BitVec.ofNat 16 (65535 - twice % 65536)

/-- R92: the sum of a frame's input stays below 2^26, and for every sum below 2^32 two folds lose no carry:
they leave the residue modulo 0xFFFF in 1..0xFFFF, or 0 for 0. -/
def Obligations.TwoFoldsAreExact : Prop :=
  (∀ bs : List Byte, bs.length ≤ 1028 → wordSum bs < 2 ^ 26) ∧
  (∀ n : Nat, n < 2 ^ 32 → foldCarry n ≤ 0x1FFFE ∧ foldCarry (foldCarry n) ≤ 0xFFFF ∧
    foldCarry (foldCarry n) = if n = 0 then 0 else (n - 1) % 0xFFFF + 1)

/-- R98, for the lengths a frame's checksum input has (R24): inverting one bit of one byte changes the
checksum. -/
def Obligations.OneInvertedBitChangesTheChecksum : Prop :=
  ∀ (bs : List Byte) (i k : Nat) (b : Byte), bs.length ≤ 1028 → bs[i]? = some b → k < 8 →
    checksum (bs.set i (b ^^^ (1#8 <<< k))) ≠ checksum bs

/-- R154 (b): inverting one bit of one payload byte changes the digits a frame needs. -/
def Obligations.OneInvertedPayloadBitChangesTheDigits : Prop :=
  ∀ (t : Byte) (p : List Byte) (i k : Nat) (b : Byte), p.length ≤ 1024 → p[i]? = some b → k < 8 →
    hex4 (frameChk t (p.set i (b ^^^ (1#8 <<< k)))) ≠ hex4 (frameChk t p)

/-- R94: no frame has the checksum 0xFFFF. -/
def Obligations.NoFrameHasChecksumFFFF : Prop :=
  ∀ (t : Byte) (p : List Byte), p.length ≤ 1024 → frameChk t p ≠ 0xFFFF#16

/-- R93, R44: four lowercase hexadecimal digits, most significant nibble first. -/
def Obligations.HexDigitsAreLowercaseMostSignificantFirst : Prop :=
  ∀ c : BitVec 16,
    hex4 c = [c.toNat / 4096, c.toNat / 256 % 16, c.toNat / 16 % 16, c.toNat % 16].map fun n =>
      if n ≤ 9 then BitVec.ofNat 8 (0x30 + n) else BitVec.ofNat 8 (0x61 + (n - 10))

/-! ## The deframer, case by case -/

/-- R131, R132: in INIT a start marker starts a frame, and any other byte is discarded with no diagnostic. -/
def Obligations.RxbInInit : Prop :=
  ∀ (s : State) (b : Byte), s.state = .init →
    (∀ i ∈ [Instr.rxb 0x3E#8, .rxbInitSof],
      exec i s = .next { s with state := .sof, data := [], chk := [0x3E#8], dig := [],
                                outputs := s.outputs ++ [.response 0x00000000#32] }) ∧
    (b ≠ 0x3E#8 → ∀ i ∈ [Instr.rxb b, .rxbInitDiscard b],
      exec i s = .next { s with outputs := s.outputs ++ [.response 0x00000000#32] })

/-- R133: in SOF any byte is the type byte. -/
def Obligations.RxbCapturesTheType : Prop :=
  ∀ (s : State) (b : Byte), s.state = .sof → ∀ i ∈ [Instr.rxb b, .rxbSofType b],
    exec i s = .next { s with type := b, chk := s.chk ++ [b], state := .data,
                              outputs := s.outputs ++ [.response 0x00000000#32] }

/-- R134: a bare 0x3E, 0x00 or 0xFF in DATA discards the frame with BAD_DATA, whatever the payload length. -/
def Obligations.RxbForbiddenByteInData : Prop :=
  ∀ (s : State) (b : Byte) (i : Instr), s.state = .data →
    (b = 0x3E#8 ∧ i ∈ [Instr.rxb 0x3E#8, .rxbDataBadData3E] ∨
     b = 0x00#8 ∧ i ∈ [Instr.rxb 0x00#8, .rxbDataBadData00] ∨
     b = 0xFF#8 ∧ i ∈ [Instr.rxb 0xFF#8, .rxbDataBadDataFF]) →
    exec i s = .next { s with state := .init, data := [], chk := [], dig := [],
                              outputs := s.outputs ++ [.diag .badData b, .response 0x00000010#32] }

/-- R135: ESC in DATA enters ESC and appends nothing, whatever the payload length. -/
def Obligations.RxbEntersEscape : Prop :=
  ∀ s : State, s.state = .data → ∀ i ∈ [Instr.rxb 0x5C#8, .rxbDataEsc],
    exec i s = .next { s with state := .esc, outputs := s.outputs ++ [.response 0x00000000#32] }

/-- R136, R137: EOF in DATA ends the payload; after an odd length the digits follow, after an even length a
second EOF. -/
def Obligations.RxbEndsThePayload : Prop :=
  ∀ s : State, s.state = .data →
    (s.data.length % 2 = 1 → ∀ i ∈ [Instr.rxb 0x3C#8, .rxbDataEofOdd],
      exec i s = .next { s with chk := s.chk ++ [0x3C#8], state := .chk0,
                                outputs := s.outputs ++ [.response 0x00000000#32] }) ∧
    (s.data.length % 2 = 0 → ∀ i ∈ [Instr.rxb 0x3C#8, .rxbDataEofEven],
      exec i s = .next { s with chk := s.chk ++ [0x3C#8], state := .eof2,
                                outputs := s.outputs ++ [.response 0x00000000#32] })

/-- R138, R139: any other byte in DATA is appended while the payload is below 1024 bytes, and discards the
frame with OVERSIZE at 1024. -/
def Obligations.RxbAppendsAnOrdinaryByte : Prop :=
  ∀ (s : State) (b : Byte), s.state = .data → b ∉ [0x5C#8, 0x3C#8, 0x3E#8, 0x00#8, 0xFF#8] →
    (s.data.length < 1024 → ∀ i ∈ [Instr.rxb b, .rxbDataAppend b],
      exec i s = .next { s with data := s.data ++ [b], chk := s.chk ++ [b],
                                outputs := s.outputs ++ [.response 0x00000000#32] }) ∧
    (s.data.length = 1024 → ∀ i ∈ [Instr.rxb b, .rxbDataOversize b],
      exec i s = .next { s with state := .init, data := [], chk := [], dig := [],
                                outputs := s.outputs ++ [.diag .oversize b, .response 0x00000030#32] })

/-- R140, R96: in ESC a valid target appends the byte it stands for, while the payload is below 1024
bytes. -/
def Obligations.RxbAppendsTheUnescapedByte : Prop :=
  ∀ (s : State) (v : Byte) (i : Instr), s.state = .esc → s.data.length < 1024 →
    (v = 0x3E#8 ∧ i ∈ [Instr.rxb 0x3E#8, .rxbEscTarget3E] ∨
     v = 0x3C#8 ∧ i ∈ [Instr.rxb 0x3C#8, .rxbEscTarget3C] ∨
     v = 0x5C#8 ∧ i ∈ [Instr.rxb 0x5C#8, .rxbEscTarget5C] ∨
     v = 0x00#8 ∧ i ∈ [Instr.rxb 0x30#8, .rxbEscTarget30] ∨
     v = 0xFF#8 ∧ i ∈ [Instr.rxb 0x46#8, .rxbEscTarget46]) →
    exec i s = .next { s with data := s.data ++ [v], chk := s.chk ++ [v], state := .data,
                              outputs := s.outputs ++ [.response 0x00000000#32] }

/-- R141: in ESC a valid target discards the frame with OVERSIZE at 1024 bytes. -/
def Obligations.RxbOversizeInEscape : Prop :=
  ∀ (s : State) (b : Byte) (i : Instr), s.state = .esc → s.data.length = 1024 →
    (b = 0x3E#8 ∧ i ∈ [Instr.rxb 0x3E#8, .rxbEscTarget3EOversize] ∨
     b = 0x3C#8 ∧ i ∈ [Instr.rxb 0x3C#8, .rxbEscTarget3COversize] ∨
     b = 0x5C#8 ∧ i ∈ [Instr.rxb 0x5C#8, .rxbEscTarget5COversize] ∨
     b = 0x30#8 ∧ i ∈ [Instr.rxb 0x30#8, .rxbEscTarget30Oversize] ∨
     b = 0x46#8 ∧ i ∈ [Instr.rxb 0x46#8, .rxbEscTarget46Oversize]) →
    exec i s = .next { s with state := .init, data := [], chk := [], dig := [],
                              outputs := s.outputs ++ [.diag .oversize b, .response 0x00000030#32] }

/-- R142: in ESC any other byte discards the frame with BAD_ESC, whatever the payload length. -/
def Obligations.RxbRejectsABadTarget : Prop :=
  ∀ (s : State) (b : Byte), s.state = .esc → b ∉ [0x3E#8, 0x3C#8, 0x5C#8, 0x30#8, 0x46#8] →
    ∀ i ∈ [Instr.rxb b, .rxbEscBadEsc b],
      exec i s = .next { s with state := .init, data := [], chk := [], dig := [],
                                outputs := s.outputs ++ [.diag .badEsc b, .response 0x00000020#32] }

/-- R143, R144: EOF2 takes a second EOF, and any other byte discards the frame with EOF2_MISSING. -/
def Obligations.RxbExpectsASecondEof : Prop :=
  ∀ (s : State) (b : Byte), s.state = .eof2 →
    (∀ i ∈ [Instr.rxb 0x3C#8, .rxbEof2Eof],
      exec i s = .next { s with chk := s.chk ++ [0x3C#8], state := .chk0,
                                outputs := s.outputs ++ [.response 0x00000000#32] }) ∧
    (b ≠ 0x3C#8 → ∀ i ∈ [Instr.rxb b, .rxbEof2Missing b],
      exec i s = .next { s with state := .init, data := [], chk := [], dig := [],
                                outputs := s.outputs ++ [.diag .eof2Missing b, .response 0x00000050#32] })

/-- R145, R146, R147: the first three digits are collected, whatever bytes they are. -/
def Obligations.RxbCollectsDigits : Prop :=
  ∀ (s : State) (b : Byte) (i : Instr) (after : DeframerState),
    (s.state = .chk0 ∧ after = .chk1 ∧ i ∈ [Instr.rxb b, .rxbChk0Digit0 b] ∨
     s.state = .chk1 ∧ after = .chk2 ∧ i ∈ [Instr.rxb b, .rxbChk1Digit1 b] ∨
     s.state = .chk2 ∧ after = .chk3 ∧ i ∈ [Instr.rxb b, .rxbChk2Digit2 b]) →
    exec i s = .next { s with dig := s.dig ++ [b], state := after,
                              outputs := s.outputs ++ [.response 0x00000000#32] }

/-- R148: when the four digits are those of the checksum the frame is delivered, and queued unless the queue
is full. -/
def Obligations.RxbDeliversAVerifiedFrame : Prop :=
  ∀ (s : State) (b : Byte), s.state = .chk3 → s.dig ++ [b] = hex4 (checksum s.chk) →
    ∀ i ∈ [Instr.rxb b, .rxbChk3Verified b],
      (s.rxq.length < s.rxqDepth →
        exec i s = .next { s with state := .init, data := [], chk := [], dig := [],
                                  rxq := s.rxq ++ [⟨s.type, s.data⟩],
                                  outputs := s.outputs ++ [.frame ⟨s.type, s.data⟩,
                                                           .response 0x00000003#32] }) ∧
      (s.rxqDepth ≤ s.rxq.length →
        exec i s = .next { s with state := .init, data := [], chk := [], dig := [],
                                  outputs := s.outputs ++ [.frame ⟨s.type, s.data⟩,
                                                           .diag .rxqOverflow b,
                                                           .response 0x00000061#32] })

/-- R149: when the four digits differ from those of the checksum the frame is discarded with CHECKSUM. -/
def Obligations.RxbDiscardsAMismatch : Prop :=
  ∀ (s : State) (b : Byte), s.state = .chk3 → s.dig ++ [b] ≠ hex4 (checksum s.chk) →
    ∀ i ∈ [Instr.rxb b, .rxbChk3Mismatch b],
      exec i s = .next { s with state := .init, data := [], chk := [], dig := [],
                                outputs := s.outputs ++ [.diag .checksum b, .response 0x00000040#32] }

/-! ## The deframer as a whole -/

/-- R130, R152: in every state a row of RXB does what RXB of its byte does (how a row's word is read is the
model's choice, log entry 4). -/
def Obligations.RowsOfRxbAgreeWithRxb : Prop :=
  ∀ (i : Instr) (b : Byte) (s : State), i.rxByte = some b → exec i s = exec (.rxb b) s

/-- R152: for every state and byte exactly one case applies. The premise is R23's bound, which every step
keeps. -/
def Obligations.ExactlyOneCaseApplies : Prop :=
  ∀ (b : Byte) (s : State), s.data.length ≤ 1024 →
    ∃ r ∈ rxRules, rxRuleApplies r b s = true ∧ ∀ r' ∈ rxRules, rxRuleApplies r' b s = true → r' = r

/-- R130, R186, R193: RXB always answers OK; its outputs are at most one frame, then at most one diagnostic
carrying the byte, then the response, whose fields say which; a frame and a diagnostic come together only when
the queue is full. -/
def Obligations.RxbOutputsComeInOrder : Prop :=
  ∀ (b : Byte) (s : State), ∃ (t : State) (f : Option Frame) (d : Option Diag) (enq : Bool) (w : Word),
    exec (.rxb b) s = .next t ∧
    t.outputs = s.outputs ++ f.toList.map .frame ++ d.toList.map (.diag · b) ++ [.response w] ∧
    w.toNat = 16 * (match d with
        | none => 0
        | some .badData => 1
        | some .badEsc => 2
        | some .oversize => 3
        | some .checksum => 4
        | some .eof2Missing => 5
        | some .rxqOverflow => 6) + (if enq then 2 else 0) + (if f.isSome then 1 else 0) ∧
    (f.isSome = true → d = none ∧ enq = true ∨ d = some .rxqOverflow ∧ enq = false) ∧
    (f.isSome = false → enq = false ∧ d ≠ some .rxqOverflow)

/-- R119: the bytes of an encoded frame, received one after another from INIT, deliver exactly that frame at
the last byte, queue it unless the queue is full, and leave the deframer in INIT; before that no frame and no
diagnostic. -/
def Obligations.AnEncodedFrameIsReceived : Prop :=
  ∀ (t : Byte) (p : List Byte) (s : State) (rest : List Input),
    p.length ≤ 1024 → s.state = .init → s.inputs = (encodeFrame t p).map .rxByte ++ rest →
    (s.rxq.length < s.rxqDepth →
      runSteps (encodeFrame t p).length s =
        .next { s with state := .init, type := t, data := [], chk := [], dig := [], inputs := rest,
                       rxq := s.rxq ++ [⟨t, p⟩],
                       outputs := s.outputs ++
                         List.replicate ((encodeFrame t p).length - 1) (.response 0x00000000#32) ++
                         [.frame ⟨t, p⟩, .response 0x00000003#32] }) ∧
    (s.rxqDepth ≤ s.rxq.length →
      ∃ b, (encodeFrame t p).getLast? = some b ∧
        runSteps (encodeFrame t p).length s =
          .next { s with state := .init, type := t, data := [], chk := [], dig := [], inputs := rest,
                         outputs := s.outputs ++
                           List.replicate ((encodeFrame t p).length - 1) (.response 0x00000000#32) ++
                           [.frame ⟨t, p⟩, .diag .rxqOverflow b, .response 0x00000061#32] })

/-- R154 (a), R149: the same bytes with any other four digits at the end deliver no frame: the last byte
discards it with CHECKSUM, and the queue is unchanged. -/
def Obligations.AFrameWithOtherDigitsIsDiscarded : Prop :=
  ∀ (t : Byte) (p : List Byte) (d0 d1 d2 d3 : Byte) (s : State) (rest : List Input),
    p.length ≤ 1024 → s.state = .init → [d0, d1, d2, d3] ≠ hex4 (frameChk t p) →
    s.inputs = ((encodeFrame t p).dropLast.dropLast.dropLast.dropLast ++ [d0, d1, d2, d3]).map .rxByte
      ++ rest →
    runSteps (encodeFrame t p).length s =
      .next { s with state := .init, type := t, data := [], chk := [], dig := [], inputs := rest,
                     outputs := s.outputs ++
                       List.replicate ((encodeFrame t p).length - 1) (.response 0x00000000#32) ++
                       [.diag .checksum d3, .response 0x00000040#32] }

/-- R155: from any state other than INIT the deframer reaches INIT within 2055 received bytes, whatever they
are, and it stays in INIT while no 0x3E arrives. The premise is the invariant, which every step keeps. -/
def Obligations.TheDeframerReturnsToInit : Prop :=
  (∀ (s : State) (bs : List Byte) (rest : List Input), s.Inv → s.state ≠ .init → bs.length = 2055 →
    s.inputs = bs.map .rxByte ++ rest →
    ∃ k t, 1 ≤ k ∧ k ≤ 2055 ∧ runSteps k s = .next t ∧ t.state = .init) ∧
  (∀ (s : State) (b : Byte), s.state = .init → b ≠ 0x3E#8 →
    ∃ t, exec (.rxb b) s = .next t ∧ t.state = .init)

/-! ## The receive queue and the control operations -/

/-- R172: RQH reads the head frame's length and type, or answers EMPTY. The premise on the length is R28's
bound, which every step keeps. -/
def Obligations.RqhReadsTheHeader : Prop :=
  (∀ w : Word, decode w = .rqh ↔ w = 0x40000000#32) ∧
  ∀ s : State,
    (s.rxq = [] → exec .rqh s = .next { s with outputs := s.outputs ++ [.response 0x10000000#32] }) ∧
    (∀ t p rest, s.rxq = ⟨t, p⟩ :: rest → p.length ≤ 1024 →
      exec .rqh s = .next { s with outputs := s.outputs ++
        [.response (BitVec.ofNat 32 (p.length * 65536 + t.toNat))] })

/-- R174: RQB reads one payload byte of the head frame; EMPTY before BADARG. Its encoding is bits [15:0] = 0
and bit 27 = 0, as R174's text says (log entry 14). -/
def Obligations.RqbReadsAPayloadByte : Prop :=
  (∀ w : Word, w &&& 0xF800FFFF#32 = 0x50000000#32 → decode w = .rqb (w.extractLsb' 16 11)) ∧
  ∀ (n : Index) (s : State),
    (s.rxq = [] → exec (.rqb n) s = .next { s with outputs := s.outputs ++ [.response 0x10000000#32] }) ∧
    (∀ t p rest, s.rxq = ⟨t, p⟩ :: rest →
      (p.length ≤ n.toNat →
        exec (.rqb n) s = .next { s with outputs := s.outputs ++ [.response 0x20000000#32] }) ∧
      (∀ h : n.toNat < p.length,
        exec (.rqb n) s = .next { s with outputs := s.outputs ++
          [.response (BitVec.ofNat 32 p[n.toNat].toNat)] }))

/-- R176: RQP removes the head frame, or answers EMPTY. -/
def Obligations.RqpRemovesTheHead : Prop :=
  (∀ w : Word, decode w = .rqp ↔ w = 0x60000000#32) ∧
  ∀ s : State,
    (s.rxq = [] → exec .rqp s = .next { s with outputs := s.outputs ++ [.response 0x10000000#32] }) ∧
    (∀ f rest, s.rxq = f :: rest →
      exec .rqp s = .next { s with rxq := rest, outputs := s.outputs ++ [.response 0x00000000#32] })

/-- R173, R177: only a verified frame joins the queue, at its end and only when there is room; only RQP takes
the oldest away; only RST empties it. -/
def Obligations.TheQueueIsFirstInFirstOut : Prop :=
  ∀ (i : Instr) (s t : State), exec i s = .next t →
    t.rxq = s.rxq ∨
    (i.rxByte.isSome = true ∧ s.rxq.length < s.rxqDepth ∧ t.rxq = s.rxq ++ [⟨s.type, s.data⟩] ∧
      ∃ w, t.outputs = s.outputs ++ [.frame ⟨s.type, s.data⟩, .response w]) ∨
    (i = .rqp ∧ ∃ f, s.rxq = f :: t.rxq) ∨
    (i = .rst ∧ t.rxq = [])

/-- R178, R32, R21: STAT answers the status word and writes no state. The premises are the bounds of R23 and
R28, which every step keeps. -/
def Obligations.StatReportsTheState : Prop :=
  (∀ w : Word, decode w = .stat ↔ w = 0x70000000#32) ∧
  ∀ s : State, s.data.length ≤ 1024 → s.rxq.length ≤ 255 →
    ∃ w : Word, exec .stat s = .next { s with outputs := s.outputs ++ [.response w] } ∧
      (w.extractLsb' 0 4).toNat =
        [DeframerState.init, .sof, .data, .esc, .eof2, .chk0, .chk1, .chk2, .chk3].idxOf s.state ∧
      (w.extractLsb' 4 11).toNat = s.data.length ∧
      w.getLsbD 15 = false ∧
      (w.extractLsb' 16 8).toNat = s.rxq.length ∧
      w.extractLsb' 24 8 = 0#8

/-- R170: NOP answers OK and writes no state. -/
def Obligations.NopOnlyAnswers : Prop :=
  (∀ w : Word, decode w = .nop ↔ w = 0x00000000#32) ∧
  (∀ w : Word, w.extractLsb' 28 4 = 0x0#4 → w ≠ 0x00000000#32 → decode w = .illegal w) ∧
  ∀ s : State, exec .nop s = .next { s with outputs := s.outputs ++ [.response 0x00000000#32] }

/-- R179: RST resets the deframer, the type and the queue, keeps the transmit buffer, and produces no frame
and no diagnostic. -/
def Obligations.RstResetsAllButTheTransmitBuffer : Prop :=
  (∀ w : Word, decode w = .rst ↔ w = 0xF0000000#32) ∧
  ∀ s : State, exec .rst s =
    .next { s with state := .init, type := 0x00#8, data := [], chk := [], dig := [], rxq := [],
                   outputs := s.outputs ++ [.response 0x00000000#32] }

/-! ## All operations -/

/-- R188, R189: every operation but a TXF over an unwritten cell answers a next state, in every state; that
fault is the only stop, and nothing is refused. -/
def Obligations.OnlyAnUnwrittenCellStopsTheBlock : Prop :=
  ∀ (i : Instr) (s : State),
    (∃ t, exec i s = .next t) ∨
    (∃ n ty k, i = .txf n ty ∧ n.toNat ≤ 1024 ∧ k < n.toNat ∧ s.txbuf.read k = none ∧
      exec i s = .fault (.unwrittenTxbuf k))

/-- R57: every operation adds exactly one response word, after its other outputs, with a status of 0 to 3; a
status other than OK comes alone and changes no state. -/
def Obligations.EveryOperationAnswersOnce : Prop :=
  ∀ (i : Instr) (s t : State), exec i s = .next t →
    ∃ os w, t.outputs = s.outputs ++ os ++ [.response w] ∧ (∀ v, Output.response v ∉ os) ∧
      (w.extractLsb' 28 4).toNat ≤ 3 ∧
      (w.extractLsb' 28 4 ≠ 0#4 → t = { s with outputs := s.outputs ++ [.response w] })

/-- R49: which operation may write which part of the state. The depth and the inputs are written by none. -/
def Obligations.EachPartIsWrittenByItsOwnOperations : Prop :=
  ∀ (i : Instr) (s t : State), exec i s = .next t →
    t.rxqDepth = s.rxqDepth ∧ t.inputs = s.inputs ∧
    ((∀ n b, i ≠ .txw n b) → t.txbuf = s.txbuf) ∧
    (i.rxByte = none → i ≠ .rst →
      t.state = s.state ∧ t.type = s.type ∧ t.data = s.data ∧ t.chk = s.chk ∧ t.dig = s.dig) ∧
    (i.rxByte = none → i ≠ .rst → i ≠ .rqp → t.rxq = s.rxq)

/-- R49: TXW and RST done twice leave the state, outputs apart, that they leave done once; the operations that
only read leave it as it was. -/
def Obligations.IdempotentOperationsRepeatWithoutEffect : Prop :=
  ∀ (i : Instr) (s t u : State), i.rxByte = none → i ≠ .rqp →
    exec i s = .next t → exec i t = .next u → u = { t with outputs := u.outputs }

/-- R192: RXQ_NONEMPTY rises only at a received byte that queues a frame, and falls only at an RQP that removes
the last frame or at RST. -/
def Obligations.RxqNonemptyFollowsTheQueue : Prop :=
  ∀ (i : Instr) (s t : State), exec i s = .next t →
    (t.rxqNonempty = true ↔ 0 < t.rxq.length) ∧
    (s.rxqNonempty = false → t.rxqNonempty = true → i.rxByte.isSome = true ∧ t.rxq.length = 1) ∧
    (s.rxqNonempty = true → t.rxqNonempty = false → i = .rqp ∧ s.rxq.length = 1 ∨ i = .rst)

/-- R54: the encoder and the deframer share no state. What RXB does depends on no cell of the transmit buffer,
and what TXF sends depends on nothing but the transmit buffer. -/
def Obligations.EncoderAndDeframerShareNoState : Prop :=
  (∀ (b : Byte) (s t : State) (m : Memory), exec (.rxb b) s = .next t →
    t.txbuf = s.txbuf ∧ exec (.rxb b) { s with txbuf := m } = .next { t with txbuf := m }) ∧
  (∀ (n : Index) (ty : Byte) (s t s' : State), exec (.txf n ty) s = .next t → s'.txbuf = s.txbuf →
    ∃ os, t = { s with outputs := s.outputs ++ os } ∧
      exec (.txf n ty) s' = .next { s' with outputs := s'.outputs ++ os })
end

