-- ==== Sys2Proof/Laws/Checksum.lean ====
section
/-! SUPPORT. The lengths of the encoder's pieces, a bound on the checksum's sum, and that four digits name one
checksum (spec 40_checksum.md, 41_encoder.md R114). -/

namespace Sys2Proof.Machine

/-- One EOF after an odd length, two after an even one (R94). -/
theorem eofPadding_length (n : Nat) : (eofPadding n).length = if n % 2 = 0 then 2 else 1 := by
  unfold eofPadding
  rcases Nat.mod_two_eq_zero_or_one n with h | h <;> simp [h]

@[simp] theorem hex4_length (c : BitVec 16) : (hex4 c).length = 4 := rfl

/-- The checksum's input is the payload, two bytes before it and one or two after it (R94). -/
theorem checksumInput_length (t : Byte) (p : List Byte) :
    (checksumInput t p).length = 2 + p.length + (if p.length % 2 = 0 then 2 else 1) := by
  simp only [checksumInput, List.length_append, eofPadding_length]
  rfl

/-- Escaping gives one byte or two (R95). -/
theorem escapeByte_length (b : Byte) : (escapeByte b).length = 1 ∨ (escapeByte b).length = 2 := by
  unfold escapeByte
  repeat' split
  all_goals simp

/-- Each word adds at most 0xFFFF to the sum (R92). -/
theorem wordSum_le (bs : List Byte) : wordSum bs ≤ 0xFFFF * ((bs.length + 1) / 2) := by
  match bs with
  | [] => simp [wordSum]
  | [a] =>
    have := a.isLt
    simp only [wordSum, List.length_cons, List.length_nil]
    omega
  | a :: b :: rest =>
    have := a.isLt
    have := b.isLt
    have := wordSum_le rest
    simp only [wordSum, List.length_cons]
    omega

/-- A hexadecimal digit names one nibble (R93). -/
theorem hexDigit_injective {x y : BitVec 4} (h : hexDigit x = hexDigit y) : x = y := by
  revert x y
  decide

end Sys2Proof.Machine
end

