-- ==== Sys2Proof/Laws/Flags.lean ====
section
/-! SUPPORT. The response words that carry no operand, as the numbers of the spec (30_encoding.md R57,
42_deframer.md R130): a meaning's answer is rewritten to them without unfolding a field. -/

namespace Sys2Proof.Machine

@[simp] theorem response_ok : responseWord .ok 0#28 = 0x00000000#32 := rfl
@[simp] theorem response_empty : responseWord .empty 0#28 = 0x10000000#32 := rfl
@[simp] theorem response_badArg : responseWord .badArg 0#28 = 0x20000000#32 := rfl
@[simp] theorem response_illegal : responseWord .illegal 0#28 = 0x30000000#32 := rfl

/-- A byte that completes nothing and breaks nothing. -/
@[simp] theorem response_rxb_quiet : responseWord .ok (rxbData none false false) = 0x00000000#32 := rfl

@[simp] theorem response_rxb_badData :
    responseWord .ok (rxbData (some .badData) false false) = 0x00000010#32 := rfl
@[simp] theorem response_rxb_badEsc :
    responseWord .ok (rxbData (some .badEsc) false false) = 0x00000020#32 := rfl
@[simp] theorem response_rxb_oversize :
    responseWord .ok (rxbData (some .oversize) false false) = 0x00000030#32 := rfl
@[simp] theorem response_rxb_checksum :
    responseWord .ok (rxbData (some .checksum) false false) = 0x00000040#32 := rfl
@[simp] theorem response_rxb_eof2Missing :
    responseWord .ok (rxbData (some .eof2Missing) false false) = 0x00000050#32 := rfl

/-- A verified frame that joined the queue (R148). -/
@[simp] theorem response_rxb_queued : responseWord .ok (rxbData none true true) = 0x00000003#32 := rfl

/-- A verified frame that found the queue full (R148). -/
@[simp] theorem response_rxb_overflow :
    responseWord .ok (rxbData (some .rxqOverflow) false true) = 0x00000061#32 := rfl

end Sys2Proof.Machine
end

