-- ==== Sys2Proof/Laws/Deframer.lean ====
section
/-! SUPPORT. What a received byte can do, said once: which case it meets, when a case applies, and what the
end of RXB adds to the outputs (spec 42_deframer.md R130, R152). -/

namespace Sys2Proof.Machine

/-- A valid escape target stands for a byte (R96). -/
theorem unescape_of_isTarget {b : Byte} (h : isTarget b = true) : ∃ v, unescape b = some v :=
  Option.isSome_iff_exists.mp h

/-- Escaping a byte gives the byte itself, ORDINARY, or ESC and the target that stands for it (R95, R96). -/
theorem escapeByte_cases (b : Byte) :
    (escapeByte b = [b] ∧ isOrdinary b = true) ∨
    (∃ t, escapeByte b = [escByte, t] ∧ unescape t = some b) := by
  unfold escapeByte
  split
  · rename_i h; exact .inr ⟨_, rfl, by rw [eq_of_beq h]; decide⟩
  split
  · rename_i h; exact .inr ⟨_, rfl, by rw [eq_of_beq h]; decide⟩
  split
  · rename_i h; exact .inr ⟨_, rfl, by rw [eq_of_beq h]; decide⟩
  split
  · rename_i h; exact .inr ⟨_, rfl, by rw [eq_of_beq h]; decide⟩
  split
  · rename_i h; exact .inr ⟨_, rfl, by rw [eq_of_beq h]; decide⟩
  · rename_i h1 h2 h3 h4 h5
    exact .inl ⟨rfl, by simp [isOrdinary, isForbidden, h1, h2, h3, h4, h5]⟩

/-- The classes of a byte are disjoint (R64). -/
theorem isOrdinary_iff (b : Byte) :
    isOrdinary b = true ↔ b ≠ escByte ∧ b ≠ eofByte ∧ isForbidden b = false := by
  simp [isOrdinary, and_assoc]

/-- FORBIDDEN is neither ESC nor EOF (R64). -/
theorem not_forbidden_esc_eof : isForbidden escByte = false ∧ isForbidden eofByte = false ∧
    escByte ≠ eofByte := by decide

/-- The case whose condition holds is the one the byte meets. -/
theorem rxRuleOf_of_applies {r : RxRule} {b : Byte} {s : State} (h : rxRuleApplies r b s = true) :
    rxRuleOf b s = r := by
  have hd := not_forbidden_esc_eof
  cases r <;> simp [rxRuleApplies] at h <;> unfold rxRuleOf <;>
    simp [h] <;> simp_all [isOrdinary_iff] <;> decide

/-- The case the byte meets has its condition, under R23's bound. -/
theorem applies_rxRuleOf (b : Byte) {s : State} (h : s.data.length ≤ maxPayload) :
    rxRuleApplies (rxRuleOf b s) b s = true := by
  unfold rxRuleOf
  split <;> (repeat' split) <;> simp_all [rxRuleApplies, isOrdinary_iff] <;> omega

/-- A row of RXB does what RXB of its byte does. -/
theorem rxbRow_eq (r : RxRule) (b : Byte) (s : State) : rxbRow r b s = execRxb b s := by
  unfold rxbRow
  split
  · rename_i h; rw [execRxb, rxRuleOf_of_applies h]
  · rfl

/-- RXB always answers a next state: the case's state with its outputs and the response added. -/
theorem execRxb_next (b : Byte) (s : State) :
    execRxb b s = .next
      (let e := rxRuleEffect (rxRuleOf b s) b s
       { e.next with outputs := e.next.outputs ++ (e.frame.toList.map .frame ++ e.diag.toList.map (.diag · b)
          ++ [.response (responseWord .ok (rxbData e.diag e.enq e.frame.isSome))]) }) := rfl

/-- The end of a case that produces nothing besides its response. -/
theorem finishRxb_quiet (b : Byte) (s : State) :
    finishRxb b (quiet s) = .next { s with outputs := s.outputs ++ [.response 0x00000000#32] } := by
  rw [← response_rxb_quiet]; rfl

/-- The end of a framing error. -/
theorem finishRxb_violation (b : Byte) (d : Diag) (s : State) :
    finishRxb b (violation d s) =
      .next { s with state := .init, data := [], chk := [], dig := [],
                     outputs := s.outputs ++
                       [.diag d b, .response (responseWord .ok (rxbData (some d) false false))] } := rfl

/-- The end of a verified frame that joins the queue. -/
theorem finishRxb_verified_queued (b : Byte) {s : State} (h : s.rxqFull = false) :
    finishRxb b (rxChk3Verified s) =
      .next { s with state := .init, data := [], chk := [], dig := [],
                     rxq := s.rxq ++ [⟨s.type, s.data⟩],
                     outputs := s.outputs ++ [.frame ⟨s.type, s.data⟩, .response 0x00000003#32] } := by
  rw [← response_rxb_queued, rxChk3Verified, h]; rfl

/-- The end of a verified frame that finds the queue full. -/
theorem finishRxb_verified_full (b : Byte) {s : State} (h : s.rxqFull = true) :
    finishRxb b (rxChk3Verified s) =
      .next { s with state := .init, data := [], chk := [], dig := [],
                     outputs := s.outputs ++ [.frame ⟨s.type, s.data⟩, .diag .rxqOverflow b,
                       .response 0x00000061#32] } := by
  rw [← response_rxb_overflow, rxChk3Verified, h]; rfl

end Sys2Proof.Machine
end

