-- ==== Sys2Proof/Laws/Encoding.lean ====
section
/-! SUPPORT. Words and their parts: what the operands leave of a row's mask, and that each operand reads back
from its place (spec 30_encoding.md R56, R58, R61). -/

namespace Sys2Proof.Machine

/-- A byte in its place has only bits of B. -/
theorem placeB_and (b : Byte) : placeB b &&& 0xFFFFFF00#32 = 0#32 := by
  apply BitVec.eq_of_getLsbD_eq
  intro i hi
  interval_cases i <;> simp [placeB]

/-- An index in its place has only bits of N. -/
theorem placeN_and (n : Index) : placeN n &&& 0xF800FFFF#32 = 0#32 := by
  apply BitVec.eq_of_getLsbD_eq
  intro i hi
  interval_cases i <;> simp [placeN]

/-- The free bits of a reserved op code stay below the op code. -/
theorem placeX_and (x : BitVec 28) : placeX x &&& 0xF0000000#32 = 0#32 := by
  apply BitVec.eq_of_getLsbD_eq
  intro i hi
  interval_cases i <;> simp [placeX]

/-- Bits that `a` does not meet under `k` it does not meet under a part of `k`. -/
theorem and_part {a k k' : Word} (h : a &&& k = 0#32) (hk : k &&& k' = k') : a &&& k' = 0#32 := by
  rw [← hk, ← BitVec.and_assoc, h, BitVec.zero_and]

/-- A mask distributes over the parts of a word. -/
theorem or_and_mask (a b k : Word) : (a ||| b) &&& k = a &&& k ||| b &&& k := by
  apply BitVec.eq_of_getLsbD_eq
  intro i _
  simp [Bool.and_or_distrib_right]

/-- A word made of an op code and a byte. -/
theorem opByte_and (m k : Word) (b : Byte) (hk : 0xFFFFFF00#32 &&& k = k) :
    (m ||| placeB b) &&& k = m &&& k := by
  rw [or_and_mask, and_part (placeB_and b) hk, BitVec.or_zero]

/-- A word made of an op code and an index. -/
theorem opIndex_and (m k : Word) (n : Index) (hk : 0xF800FFFF#32 &&& k = k) :
    (m ||| placeN n) &&& k = m &&& k := by
  rw [or_and_mask, and_part (placeN_and n) hk, BitVec.or_zero]

/-- A reserved op code with its free bits. -/
theorem opFree_and (m : Word) (x : BitVec 28) :
    (m ||| placeX x) &&& 0xF0000000#32 = m &&& 0xF0000000#32 := by
  rw [or_and_mask, placeX_and, BitVec.or_zero]

/-- B reads back from its place beside an op code and an index. -/
theorem operandB_place (m : Word) (n : Index) (b : Byte) (hm : operandB m = 0#8) :
    operandB (m ||| placeN n ||| placeB b) = b := by
  apply BitVec.eq_of_getLsbD_eq
  intro i hi
  have h : m.getLsbD i = false := by
    have h := congrArg (·.getLsbD i) hm
    simpa [operandB, hi] using h
  clear hm
  interval_cases i <;> simp_all [operandB, placeN, placeB]

/-- N reads back from its place beside an op code and a byte. -/
theorem operandN_place (m : Word) (n : Index) (b : Byte) (hm : operandN m = 0#11) :
    operandN (m ||| placeN n ||| placeB b) = n := by
  apply BitVec.eq_of_getLsbD_eq
  intro i hi
  have h : m.getLsbD (16 + i) = false := by
    have h := congrArg (·.getLsbD i) hm
    simpa [operandN, hi] using h
  clear hm
  interval_cases i <;> simp_all [operandN, placeN, placeB]

/-- The free bits of a reserved op code read back. -/
theorem operandX_place (m : Word) (x : BitVec 28) (hm : operandX m = 0#28) :
    operandX (m ||| placeX x) = x := by
  apply BitVec.eq_of_getLsbD_eq
  intro i hi
  have h : m.getLsbD i = false := by
    have h := congrArg (·.getLsbD i) hm
    simpa [operandX, hi] using h
  clear hm
  interval_cases i <;> simp_all [operandX, placeX]

/-- No index. -/
@[simp] theorem placeN_zero : placeN 0#11 = 0#32 := rfl

/-- No byte. -/
@[simp] theorem placeB_zero : placeB 0#8 = 0#32 := rfl

/-- A selected row is one whose match and mask the word meets. -/
theorem opSelects_of_selectedOp {w : Word} {o : OpCode} (h : selectedOp w = some o) :
    w &&& opMask o = opMatch o := by
  have := List.find?_some h
  exact eq_of_beq this

/-- The rows of the map are all the op codes. -/
theorem mem_opCodes (o : OpCode) : o ∈ opCodes := by cases o <;> decide

/-- A word that selects no row meets the match and mask of none. -/
theorem not_opSelects_of_selectedOp {w : Word} (h : selectedOp w = none) (o : OpCode) :
    opSelects o w = false := by
  have := List.find?_eq_none.mp h o (mem_opCodes o)
  simpa using this

end Sys2Proof.Machine
end

