-- ==== Sys2Proof/Laws/Memory.lean ====
section
/-! SUPPORT. The transmit buffer: a read after a write, the canonical form, and what reading a range says
(spec 20_memory.md R42). -/

namespace Sys2Proof.Machine

/-- A read at the written address gives the byte written, in every list of cells. -/
@[simp] theorem Memory.read_write_same (m : Memory) (a : Nat) (v : Byte) :
    (m.write a v).read a = some v := by
  induction m with
  | nil => simp [Memory.write, Memory.read]
  | cons c rest ih =>
    obtain ⟨k, u⟩ := c
    rcases lt_trichotomy a k with h | rfl | h
    · simp [Memory.write, Memory.read, h]
    · simp [Memory.write, Memory.read]
    · have h1 : ¬ a < k := by omega
      have h2 : a ≠ k := by omega
      simp only [Memory.write, h1, h2, if_false, Memory.read]
      exact ih

/-- A write leaves every other address alone. -/
theorem Memory.read_write_other (m : Memory) {a i : Nat} (v : Byte) (hne : i ≠ a) :
    (m.write a v).read i = m.read i := by
  induction m with
  | nil => simp [Memory.write, Memory.read, hne]
  | cons c rest ih =>
    obtain ⟨k, u⟩ := c
    rcases lt_trichotomy a k with h | rfl | h
    · simp [Memory.write, Memory.read, h, hne]
    · simp [Memory.write, Memory.read, hne]
    · have h1 : ¬ a < k := by omega
      have h2 : a ≠ k := by omega
      simp only [Memory.write, h1, h2, if_false, Memory.read]
      rw [ih]

/-- Nothing is written in the empty buffer. -/
@[simp] theorem Memory.read_nil (a : Nat) : Memory.read [] a = none := rfl

/-- A write inside the bounds keeps the cells rising. -/
theorem Memory.risingFrom_write {m : Memory} {lo hi a : Nat} (v : Byte)
    (hm : Memory.risingFrom lo hi m = true) (hlo : lo ≤ a) (hhi : a < hi) :
    Memory.risingFrom lo hi (m.write a v) = true := by
  induction m generalizing lo with
  | nil => simp [Memory.write, Memory.risingFrom, hlo, hhi]
  | cons c rest ih =>
    obtain ⟨k, u⟩ := c
    simp only [Memory.risingFrom, Bool.and_eq_true, decide_eq_true_eq] at hm
    obtain ⟨⟨hk, hkh⟩, hr⟩ := hm
    rcases lt_trichotomy a k with h | rfl | h
    · simp [Memory.write, Memory.risingFrom, h, hlo, hhi, hkh, hr]
    · simp [Memory.write, Memory.risingFrom, hlo, hhi, hr]
    · have h1 : ¬ a < k := by omega
      have h2 : a ≠ k := by omega
      simp only [Memory.write, h1, h2, if_false, Memory.risingFrom, Bool.and_eq_true,
        decide_eq_true_eq]
      exact ⟨⟨hk, hkh⟩, ih hr (by omega)⟩

/-- A write inside the transmit buffer keeps the canonical form. -/
theorem Memory.wf_write {m : Memory} {a : Nat} (v : Byte) (hm : m.wf = true) (ha : a < txbufSize) :
    (m.write a v).wf = true :=
  Memory.risingFrom_write v hm (Nat.zero_le a) ha

/-- Rising cells hold nothing at or above their upper bound. -/
theorem Memory.read_of_risingFrom {m : Memory} {lo hi a : Nat} (hm : Memory.risingFrom lo hi m = true)
    (ha : hi ≤ a) : m.read a = none := by
  induction m generalizing lo with
  | nil => rfl
  | cons c rest ih =>
    obtain ⟨k, u⟩ := c
    simp only [Memory.risingFrom, Bool.and_eq_true, decide_eq_true_eq] at hm
    have hne : a ≠ k := by omega
    simp only [Memory.read, hne, if_false]
    exact ih hm.2

/-- Rising cells are no more than the addresses between their bounds. -/
theorem Memory.length_of_risingFrom {m : Memory} {lo hi : Nat}
    (hm : Memory.risingFrom lo hi m = true) : m.length ≤ hi - lo := by
  induction m generalizing lo with
  | nil => exact Nat.zero_le _
  | cons c rest ih =>
    obtain ⟨k, u⟩ := c
    simp only [Memory.risingFrom, Bool.and_eq_true, decide_eq_true_eq] at hm
    have := ih hm.2
    simp only [List.length_cons]
    omega

/-- The launch state's transmit buffer is in canonical form. -/
theorem Memory.wf_nil : Memory.wf [] = true := rfl

/-- A range reads as the bytes its cells hold, when every cell holds one. -/
theorem Memory.readRange_ok {m : Memory} {a : Nat} {p : List Byte}
    (h : ∀ i, (hi : i < p.length) → m.read (a + i) = some p[i]) :
    m.readRange a p.length = .ok p := by
  induction p generalizing a with
  | nil => rfl
  | cons b rest ih =>
    have h0 : m.read a = some b := h 0 (Nat.succ_pos _)
    have hr : m.readRange (a + 1) rest.length = .ok rest := by
      apply ih
      intro i hi
      have := h (i + 1) (by simpa using hi)
      simpa [Nat.add_assoc, Nat.add_comm 1 i] using this
    simp [Memory.readRange, h0, hr]

/-- Everything reading a range can do: the bytes of all its cells, or the smallest unwritten address. -/
theorem Memory.readRange_cases (m : Memory) (a n : Nat) :
    (∃ p, m.readRange a n = .ok p ∧ p.length = n ∧
      ∀ i, (hi : i < p.length) → m.read (a + i) = some p[i]) ∨
    (∃ k, k < n ∧ m.readRange a n = .error (a + k) ∧ m.read (a + k) = none ∧
      ∀ j, j < k → m.read (a + j) ≠ none) := by
  induction n generalizing a with
  | zero => exact .inl ⟨[], rfl, rfl, by simp⟩
  | succ n ih =>
    cases hb : m.read a with
    | none => exact .inr ⟨0, by omega, by simp [Memory.readRange, hb], by simpa using hb, by simp⟩
    | some b =>
      rcases ih (a + 1) with ⟨p, hp, hl, hc⟩ | ⟨k, hk, he, hn, hj⟩
      · refine .inl ⟨b :: p, by simp [Memory.readRange, hb, hp], by simp [hl], ?_⟩
        rintro (_ | i) hi
        · simpa using hb
        · have := hc i (by simpa using hi)
          simpa [Nat.add_assoc, Nat.add_comm 1 i] using this
      · refine .inr ⟨k + 1, by omega, ?_, ?_, ?_⟩
        · simp [Memory.readRange, hb, he, Nat.add_assoc, Nat.add_comm 1 k]
        · simpa [Nat.add_assoc, Nat.add_comm 1 k] using hn
        · rintro (_ | j) hjk
          · simp [hb]
          · have := hj j (by omega)
            simpa [Nat.add_assoc, Nat.add_comm 1 j] using this

end Sys2Proof.Machine
end

