-- ==== Sys2Proof/Laws/Exec.lean ====
section
/-! SUPPORT. Everything an operation can do, said once: the operations that take no received byte, and RXB on
the parts of the state outside the deframer (spec 20_memory.md R49). -/

namespace Sys2Proof.Machine

/-- An operation that takes no received byte answers with a response alone, or is one of the five that do
more: a TXW inside the buffer, a TXF that faults or sends, an RQP that removes a frame, RST. -/
theorem exec_cases_of_no_rxByte {i : Instr} (hb : i.rxByte = none) (s : State) :
    (∃ st d, exec i s = answer s st d) ∨
    (∃ n b, i = .txw n b ∧ n.toNat < txbufSize ∧
      exec i s = answer (s.writeTxbuf n.toNat b) .ok 0#28) ∨
    (∃ n t k, i = .txf n t ∧ n.toNat ≤ maxPayload ∧ k < n.toNat ∧ s.txbuf.read k = none ∧
      exec i s = .fault (.unwrittenTxbuf k)) ∨
    (∃ n t p, i = .txf n t ∧ n.toNat ≤ maxPayload ∧ s.txbuf.readRange 0 n.toNat = .ok p ∧
      p.length = n.toNat ∧
      exec i s = answer (s.emit ((encodeFrame t p).map .txByte)) .ok (txfData (encodeFrame t p).length)) ∨
    (i = .rqp ∧ (∃ f rest, s.rxq = f :: rest) ∧ exec i s = answer s.dequeue .ok 0#28) ∨
    (i = .rst ∧ exec i s = answer s.softReset .ok 0#28) := by
  cases i <;> simp [Instr.rxByte] at hb
  case txw n b =>
    by_cases h : txbufSize ≤ n.toNat
    · exact .inl ⟨.badArg, 0#28, by simp [exec, execTxw, h]⟩
    · exact .inr (.inl ⟨n, b, rfl, Nat.lt_of_not_le h, by simp [exec, execTxw, h]⟩)
  case txf n t =>
    by_cases h : maxPayload < n.toNat
    · exact .inl ⟨.badArg, 0#28, by simp [exec, execTxf, h]⟩
    · have hn := Nat.le_of_not_lt h
      rcases Memory.readRange_cases s.txbuf 0 n.toNat with ⟨p, hp, hl, -⟩ | ⟨k, hk, he, hr, -⟩
      · exact .inr (.inr (.inr (.inl ⟨n, t, p, rfl, hn, hp, hl, by simp [exec, execTxf, h, hp]⟩)))
      · exact .inr (.inr (.inl ⟨n, t, k, rfl, hn, hk, by simpa using hr,
          by simp [exec, execTxf, h, he]⟩))
  case rqh =>
    cases h : s.rxq with
    | nil => exact .inl ⟨.empty, 0#28, by simp [exec, execRqh, h]⟩
    | cons f r => exact .inl ⟨.ok, rqhData f, by simp [exec, execRqh, h]⟩
  case rqb n =>
    cases h : s.rxq with
    | nil => exact .inl ⟨.empty, 0#28, by simp [exec, execRqb, h]⟩
    | cons f r =>
      cases h' : f.payload[n.toNat]? with
      | none => exact .inl ⟨.badArg, 0#28, by simp [exec, execRqb, h, h']⟩
      | some b => exact .inl ⟨.ok, rqbData b, by simp [exec, execRqb, h, h']⟩
  case rqp =>
    cases h : s.rxq with
    | nil => exact .inl ⟨.empty, 0#28, by simp [exec, execRqp, h]⟩
    | cons f r =>
      exact .inr (.inr (.inr (.inr (.inl ⟨rfl, ⟨f, r, rfl⟩, by simp [exec, execRqp, h]⟩))))
  case rst => exact .inr (.inr (.inr (.inr (.inr ⟨rfl, rfl⟩))))
  all_goals exact .inl ⟨_, _, rfl⟩

/-- What RXB may do outside the deframer: nothing but queue the frame in progress, when there is room. -/
theorem execRxb_frame {b : Byte} {s t : State} (h : execRxb b s = .next t) :
    t.rxqDepth = s.rxqDepth ∧ t.inputs = s.inputs ∧ t.txbuf = s.txbuf ∧
    (t.rxq = s.rxq ∨
      (s.rxq.length < s.rxqDepth ∧ t.rxq = s.rxq ++ [⟨s.type, s.data⟩] ∧
        t.outputs = s.outputs ++ [.frame ⟨s.type, s.data⟩, .response 0x00000003#32])) := by
  rw [execRxb] at h
  cases hr : rxRuleOf b s <;> rw [hr] at h
  case chk3Verified =>
    simp only [rxRuleEffect] at h
    cases hf : s.rxqFull with
    | true =>
      rw [finishRxb_verified_full b hf] at h
      obtain rfl := Host.Outcome.next.inj h
      exact ⟨rfl, rfl, rfl, .inl rfl⟩
    | false =>
      rw [finishRxb_verified_queued b hf] at h
      obtain rfl := Host.Outcome.next.inj h
      exact ⟨rfl, rfl, rfl, .inr ⟨by simpa [State.rxqFull] using hf, rfl, rfl⟩⟩
  all_goals
    obtain rfl := Host.Outcome.next.inj h
    exact ⟨rfl, rfl, rfl, .inl rfl⟩

/-- In a state where a case's condition holds, RXB is that case. -/
theorem execRxb_of_applies {r : RxRule} {b : Byte} {s : State} (h : rxRuleApplies r b s = true) :
    execRxb b s = finishRxb b (rxRuleEffect r b s) := by
  rw [execRxb, rxRuleOf_of_applies h]

end Sys2Proof.Machine
end

