-- ==== Sys2Proof/Laws/PerInstr.lean ====
section
/-! SUPPORT. Per-instruction laws. Family `EncodesToRow`: the word of a well-formed instruction matches the
row of spec/opcode_table.json that the instruction stands for, with the match and mask that the table prints;
the word of ILLEGAL selects no row. -/

namespace Sys2Proof.Laws.EncodesToRow

open Sys2Proof Sys2Proof.Machine

/-- The match and mask the table prints for the instruction's row, none for ILLEGAL. -/
def row : Instr → Option (Word × Word)
  | .nop => some (0x00000000#32, 0xFFFFFFFF#32)
  | .rxb _ => some (0x10000000#32, 0xFFFFFF00#32)
  | .txw _ _ => some (0x20000000#32, 0xF800FF00#32)
  | .txf _ _ => some (0x30000000#32, 0xF800FF00#32)
  | .rqh => some (0x40000000#32, 0xFFFFFFFF#32)
  | .rqb _ => some (0x50000000#32, 0xF80000FF#32)
  | .rqp => some (0x60000000#32, 0xFFFFFFFF#32)
  | .stat => some (0x70000000#32, 0xFFFFFFFF#32)
  | .rst => some (0xF0000000#32, 0xFFFFFFFF#32)
  | .reserved8 _ => some (0x80000000#32, 0xF0000000#32)
  | .reserved9 _ => some (0x90000000#32, 0xF0000000#32)
  | .reservedA _ => some (0xA0000000#32, 0xF0000000#32)
  | .reservedB _ => some (0xB0000000#32, 0xF0000000#32)
  | .reservedC _ => some (0xC0000000#32, 0xF0000000#32)
  | .reservedD _ => some (0xD0000000#32, 0xF0000000#32)
  | .reservedE _ => some (0xE0000000#32, 0xF0000000#32)
  | .illegal _ => none
  | .rxbInitSof => some (0x1000003E#32, 0xFFFFFFFF#32)
  | .rxbInitDiscard _ => some (0x10000000#32, 0xFFFFFF00#32)
  | .rxbSofType _ => some (0x10000000#32, 0xFFFFFF00#32)
  | .rxbDataBadData3E => some (0x1000003E#32, 0xFFFFFFFF#32)
  | .rxbDataBadData00 => some (0x10000000#32, 0xFFFFFFFF#32)
  | .rxbDataBadDataFF => some (0x100000FF#32, 0xFFFFFFFF#32)
  | .rxbDataEsc => some (0x1000005C#32, 0xFFFFFFFF#32)
  | .rxbDataEofOdd => some (0x1000003C#32, 0xFFFFFFFF#32)
  | .rxbDataEofEven => some (0x1000003C#32, 0xFFFFFFFF#32)
  | .rxbDataAppend _ => some (0x10000000#32, 0xFFFFFF00#32)
  | .rxbDataOversize _ => some (0x10000000#32, 0xFFFFFF00#32)
  | .rxbEscTarget3E => some (0x1000003E#32, 0xFFFFFFFF#32)
  | .rxbEscTarget3EOversize => some (0x1000003E#32, 0xFFFFFFFF#32)
  | .rxbEscTarget3C => some (0x1000003C#32, 0xFFFFFFFF#32)
  | .rxbEscTarget3COversize => some (0x1000003C#32, 0xFFFFFFFF#32)
  | .rxbEscTarget5C => some (0x1000005C#32, 0xFFFFFFFF#32)
  | .rxbEscTarget5COversize => some (0x1000005C#32, 0xFFFFFFFF#32)
  | .rxbEscTarget30 => some (0x10000030#32, 0xFFFFFFFF#32)
  | .rxbEscTarget30Oversize => some (0x10000030#32, 0xFFFFFFFF#32)
  | .rxbEscTarget46 => some (0x10000046#32, 0xFFFFFFFF#32)
  | .rxbEscTarget46Oversize => some (0x10000046#32, 0xFFFFFFFF#32)
  | .rxbEscBadEsc _ => some (0x10000000#32, 0xFFFFFF00#32)
  | .rxbEof2Eof => some (0x1000003C#32, 0xFFFFFFFF#32)
  | .rxbEof2Missing _ => some (0x10000000#32, 0xFFFFFF00#32)
  | .rxbChk0Digit0 _ => some (0x10000000#32, 0xFFFFFF00#32)
  | .rxbChk1Digit1 _ => some (0x10000000#32, 0xFFFFFF00#32)
  | .rxbChk2Digit2 _ => some (0x10000000#32, 0xFFFFFF00#32)
  | .rxbChk3Verified _ => some (0x10000000#32, 0xFFFFFF00#32)
  | .rxbChk3Mismatch _ => some (0x10000000#32, 0xFFFFFF00#32)

/-- The instruction's word is a word of its row. -/
def Statement (i : Instr) : Prop :=
  i.wf = true →
    match row i with
    | some (m, k) => encode i &&& k = m
    | none => selectedOp (encode i) = none

theorem nop : Statement .nop := fun _ => rfl

theorem rxb (b : Byte) : Statement (.rxb b) := fun _ => by
  show (opMatch .rxb ||| placeB b) &&& 0xFFFFFF00#32 = _
  rw [opByte_and _ _ _ (by decide)]; decide

theorem txw (n : Index) (b : Byte) : Statement (.txw n b) := fun _ => by
  show (opMatch .txw ||| placeN n ||| placeB b) &&& 0xF800FF00#32 = _
  rw [opByte_and _ _ _ (by decide), opIndex_and _ _ _ (by decide)]; decide

theorem txf (n : Index) (t : Byte) : Statement (.txf n t) := fun _ => by
  show (opMatch .txf ||| placeN n ||| placeB t) &&& 0xF800FF00#32 = _
  rw [opByte_and _ _ _ (by decide), opIndex_and _ _ _ (by decide)]; decide

theorem rqh : Statement .rqh := fun _ => rfl

theorem rqb (n : Index) : Statement (.rqb n) := fun _ => by
  show (opMatch .rqb ||| placeN n) &&& 0xF80000FF#32 = _
  rw [opIndex_and _ _ _ (by decide)]; decide

theorem rqp : Statement .rqp := fun _ => rfl

theorem stat : Statement .stat := fun _ => rfl

theorem rst : Statement .rst := fun _ => rfl

theorem reserved8 (x : BitVec 28) : Statement (.reserved8 x) := fun _ => opFree_and _ x

theorem reserved9 (x : BitVec 28) : Statement (.reserved9 x) := fun _ => opFree_and _ x

theorem reservedA (x : BitVec 28) : Statement (.reservedA x) := fun _ => opFree_and _ x

theorem reservedB (x : BitVec 28) : Statement (.reservedB x) := fun _ => opFree_and _ x

theorem reservedC (x : BitVec 28) : Statement (.reservedC x) := fun _ => opFree_and _ x

theorem reservedD (x : BitVec 28) : Statement (.reservedD x) := fun _ => opFree_and _ x

theorem reservedE (x : BitVec 28) : Statement (.reservedE x) := fun _ => opFree_and _ x

theorem illegal (w : Word) : Statement (.illegal w) := by
  intro h
  exact Option.isNone_iff_eq_none.mp h

theorem rxbInitSof : Statement .rxbInitSof := fun _ => rfl

theorem rxbInitDiscard (b : Byte) : Statement (.rxbInitDiscard b) := fun _ => by
  show (opMatch .rxb ||| placeB b) &&& 0xFFFFFF00#32 = _
  rw [opByte_and _ _ _ (by decide)]; decide

theorem rxbSofType (b : Byte) : Statement (.rxbSofType b) := fun _ => by
  show (opMatch .rxb ||| placeB b) &&& 0xFFFFFF00#32 = _
  rw [opByte_and _ _ _ (by decide)]; decide

theorem rxbDataBadData3E : Statement .rxbDataBadData3E := fun _ => rfl

theorem rxbDataBadData00 : Statement .rxbDataBadData00 := fun _ => rfl

theorem rxbDataBadDataFF : Statement .rxbDataBadDataFF := fun _ => rfl

theorem rxbDataEsc : Statement .rxbDataEsc := fun _ => rfl

theorem rxbDataEofOdd : Statement .rxbDataEofOdd := fun _ => rfl

theorem rxbDataEofEven : Statement .rxbDataEofEven := fun _ => rfl

theorem rxbDataAppend (b : Byte) : Statement (.rxbDataAppend b) := fun _ => by
  show (opMatch .rxb ||| placeB b) &&& 0xFFFFFF00#32 = _
  rw [opByte_and _ _ _ (by decide)]; decide

theorem rxbDataOversize (b : Byte) : Statement (.rxbDataOversize b) := fun _ => by
  show (opMatch .rxb ||| placeB b) &&& 0xFFFFFF00#32 = _
  rw [opByte_and _ _ _ (by decide)]; decide

theorem rxbEscTarget3E : Statement .rxbEscTarget3E := fun _ => rfl

theorem rxbEscTarget3EOversize : Statement .rxbEscTarget3EOversize := fun _ => rfl

theorem rxbEscTarget3C : Statement .rxbEscTarget3C := fun _ => rfl

theorem rxbEscTarget3COversize : Statement .rxbEscTarget3COversize := fun _ => rfl

theorem rxbEscTarget5C : Statement .rxbEscTarget5C := fun _ => rfl

theorem rxbEscTarget5COversize : Statement .rxbEscTarget5COversize := fun _ => rfl

theorem rxbEscTarget30 : Statement .rxbEscTarget30 := fun _ => rfl

theorem rxbEscTarget30Oversize : Statement .rxbEscTarget30Oversize := fun _ => rfl

theorem rxbEscTarget46 : Statement .rxbEscTarget46 := fun _ => rfl

theorem rxbEscTarget46Oversize : Statement .rxbEscTarget46Oversize := fun _ => rfl

theorem rxbEscBadEsc (b : Byte) : Statement (.rxbEscBadEsc b) := fun _ => by
  show (opMatch .rxb ||| placeB b) &&& 0xFFFFFF00#32 = _
  rw [opByte_and _ _ _ (by decide)]; decide

theorem rxbEof2Eof : Statement .rxbEof2Eof := fun _ => rfl

theorem rxbEof2Missing (b : Byte) : Statement (.rxbEof2Missing b) := fun _ => by
  show (opMatch .rxb ||| placeB b) &&& 0xFFFFFF00#32 = _
  rw [opByte_and _ _ _ (by decide)]; decide

theorem rxbChk0Digit0 (b : Byte) : Statement (.rxbChk0Digit0 b) := fun _ => by
  show (opMatch .rxb ||| placeB b) &&& 0xFFFFFF00#32 = _
  rw [opByte_and _ _ _ (by decide)]; decide

theorem rxbChk1Digit1 (b : Byte) : Statement (.rxbChk1Digit1 b) := fun _ => by
  show (opMatch .rxb ||| placeB b) &&& 0xFFFFFF00#32 = _
  rw [opByte_and _ _ _ (by decide)]; decide

theorem rxbChk2Digit2 (b : Byte) : Statement (.rxbChk2Digit2 b) := fun _ => by
  show (opMatch .rxb ||| placeB b) &&& 0xFFFFFF00#32 = _
  rw [opByte_and _ _ _ (by decide)]; decide

theorem rxbChk3Verified (b : Byte) : Statement (.rxbChk3Verified b) := fun _ => by
  show (opMatch .rxb ||| placeB b) &&& 0xFFFFFF00#32 = _
  rw [opByte_and _ _ _ (by decide)]; decide

theorem rxbChk3Mismatch (b : Byte) : Statement (.rxbChk3Mismatch b) := fun _ => by
  show (opMatch .rxb ||| placeB b) &&& 0xFFFFFF00#32 = _
  rw [opByte_and _ _ _ (by decide)]; decide

end Sys2Proof.Laws.EncodesToRow
end

