-- ==== Sys2Proof/Laws/State.lean ====
section
/-! SUPPORT. What each named update of the state leaves in each field: one lemma per field per update, true by
unfolding the record, so that no later proof unfolds an update. -/

namespace Sys2Proof.Machine

/-! ## emit -/

@[simp] theorem State.emit_state (s : State) (os : List Output) : (s.emit os).state = s.state := rfl
@[simp] theorem State.emit_type (s : State) (os : List Output) : (s.emit os).type = s.type := rfl
@[simp] theorem State.emit_data (s : State) (os : List Output) : (s.emit os).data = s.data := rfl
@[simp] theorem State.emit_chk (s : State) (os : List Output) : (s.emit os).chk = s.chk := rfl
@[simp] theorem State.emit_dig (s : State) (os : List Output) : (s.emit os).dig = s.dig := rfl
@[simp] theorem State.emit_rxq (s : State) (os : List Output) : (s.emit os).rxq = s.rxq := rfl
@[simp] theorem State.emit_txbuf (s : State) (os : List Output) : (s.emit os).txbuf = s.txbuf := rfl
@[simp] theorem State.emit_rxqDepth (s : State) (os : List Output) : (s.emit os).rxqDepth = s.rxqDepth := rfl
@[simp] theorem State.emit_inputs (s : State) (os : List Output) : (s.emit os).inputs = s.inputs := rfl
@[simp] theorem State.emit_outputs (s : State) (os : List Output) : (s.emit os).outputs = s.outputs ++ os := rfl

/-! ## respond -/

@[simp] theorem State.respond_state (s : State) (st : Status) (d : BitVec 28) : (s.respond st d).state = s.state := rfl
@[simp] theorem State.respond_type (s : State) (st : Status) (d : BitVec 28) : (s.respond st d).type = s.type := rfl
@[simp] theorem State.respond_data (s : State) (st : Status) (d : BitVec 28) : (s.respond st d).data = s.data := rfl
@[simp] theorem State.respond_chk (s : State) (st : Status) (d : BitVec 28) : (s.respond st d).chk = s.chk := rfl
@[simp] theorem State.respond_dig (s : State) (st : Status) (d : BitVec 28) : (s.respond st d).dig = s.dig := rfl
@[simp] theorem State.respond_rxq (s : State) (st : Status) (d : BitVec 28) : (s.respond st d).rxq = s.rxq := rfl
@[simp] theorem State.respond_txbuf (s : State) (st : Status) (d : BitVec 28) : (s.respond st d).txbuf = s.txbuf := rfl
@[simp] theorem State.respond_rxqDepth (s : State) (st : Status) (d : BitVec 28) : (s.respond st d).rxqDepth = s.rxqDepth := rfl
@[simp] theorem State.respond_inputs (s : State) (st : Status) (d : BitVec 28) : (s.respond st d).inputs = s.inputs := rfl
@[simp] theorem State.respond_outputs (s : State) (st : Status) (d : BitVec 28) : (s.respond st d).outputs = s.outputs ++ [.response (responseWord st d)] := rfl

/-! ## writeTxbuf -/

@[simp] theorem State.writeTxbuf_state (s : State) (i : Nat) (v : Byte) : (s.writeTxbuf i v).state = s.state := rfl
@[simp] theorem State.writeTxbuf_type (s : State) (i : Nat) (v : Byte) : (s.writeTxbuf i v).type = s.type := rfl
@[simp] theorem State.writeTxbuf_data (s : State) (i : Nat) (v : Byte) : (s.writeTxbuf i v).data = s.data := rfl
@[simp] theorem State.writeTxbuf_chk (s : State) (i : Nat) (v : Byte) : (s.writeTxbuf i v).chk = s.chk := rfl
@[simp] theorem State.writeTxbuf_dig (s : State) (i : Nat) (v : Byte) : (s.writeTxbuf i v).dig = s.dig := rfl
@[simp] theorem State.writeTxbuf_rxq (s : State) (i : Nat) (v : Byte) : (s.writeTxbuf i v).rxq = s.rxq := rfl
@[simp] theorem State.writeTxbuf_txbuf (s : State) (i : Nat) (v : Byte) : (s.writeTxbuf i v).txbuf = s.txbuf.write i v := rfl
@[simp] theorem State.writeTxbuf_rxqDepth (s : State) (i : Nat) (v : Byte) : (s.writeTxbuf i v).rxqDepth = s.rxqDepth := rfl
@[simp] theorem State.writeTxbuf_inputs (s : State) (i : Nat) (v : Byte) : (s.writeTxbuf i v).inputs = s.inputs := rfl
@[simp] theorem State.writeTxbuf_outputs (s : State) (i : Nat) (v : Byte) : (s.writeTxbuf i v).outputs = s.outputs := rfl

/-! ## enqueue -/

@[simp] theorem State.enqueue_state (s : State) (f : Frame) : (s.enqueue f).state = s.state := rfl
@[simp] theorem State.enqueue_type (s : State) (f : Frame) : (s.enqueue f).type = s.type := rfl
@[simp] theorem State.enqueue_data (s : State) (f : Frame) : (s.enqueue f).data = s.data := rfl
@[simp] theorem State.enqueue_chk (s : State) (f : Frame) : (s.enqueue f).chk = s.chk := rfl
@[simp] theorem State.enqueue_dig (s : State) (f : Frame) : (s.enqueue f).dig = s.dig := rfl
@[simp] theorem State.enqueue_rxq (s : State) (f : Frame) : (s.enqueue f).rxq = s.rxq ++ [f] := rfl
@[simp] theorem State.enqueue_txbuf (s : State) (f : Frame) : (s.enqueue f).txbuf = s.txbuf := rfl
@[simp] theorem State.enqueue_rxqDepth (s : State) (f : Frame) : (s.enqueue f).rxqDepth = s.rxqDepth := rfl
@[simp] theorem State.enqueue_inputs (s : State) (f : Frame) : (s.enqueue f).inputs = s.inputs := rfl
@[simp] theorem State.enqueue_outputs (s : State) (f : Frame) : (s.enqueue f).outputs = s.outputs := rfl

/-! ## dequeue -/

@[simp] theorem State.dequeue_state (s : State) : s.dequeue.state = s.state := rfl
@[simp] theorem State.dequeue_type (s : State) : s.dequeue.type = s.type := rfl
@[simp] theorem State.dequeue_data (s : State) : s.dequeue.data = s.data := rfl
@[simp] theorem State.dequeue_chk (s : State) : s.dequeue.chk = s.chk := rfl
@[simp] theorem State.dequeue_dig (s : State) : s.dequeue.dig = s.dig := rfl
@[simp] theorem State.dequeue_rxq (s : State) : s.dequeue.rxq = s.rxq.tail := rfl
@[simp] theorem State.dequeue_txbuf (s : State) : s.dequeue.txbuf = s.txbuf := rfl
@[simp] theorem State.dequeue_rxqDepth (s : State) : s.dequeue.rxqDepth = s.rxqDepth := rfl
@[simp] theorem State.dequeue_inputs (s : State) : s.dequeue.inputs = s.inputs := rfl
@[simp] theorem State.dequeue_outputs (s : State) : s.dequeue.outputs = s.outputs := rfl

/-! ## resetParser -/

@[simp] theorem State.resetParser_state (s : State) : s.resetParser.state = .init := rfl
@[simp] theorem State.resetParser_type (s : State) : s.resetParser.type = s.type := rfl
@[simp] theorem State.resetParser_data (s : State) : s.resetParser.data = [] := rfl
@[simp] theorem State.resetParser_chk (s : State) : s.resetParser.chk = [] := rfl
@[simp] theorem State.resetParser_dig (s : State) : s.resetParser.dig = [] := rfl
@[simp] theorem State.resetParser_rxq (s : State) : s.resetParser.rxq = s.rxq := rfl
@[simp] theorem State.resetParser_txbuf (s : State) : s.resetParser.txbuf = s.txbuf := rfl
@[simp] theorem State.resetParser_rxqDepth (s : State) : s.resetParser.rxqDepth = s.rxqDepth := rfl
@[simp] theorem State.resetParser_inputs (s : State) : s.resetParser.inputs = s.inputs := rfl
@[simp] theorem State.resetParser_outputs (s : State) : s.resetParser.outputs = s.outputs := rfl

/-! ## softReset -/

@[simp] theorem State.softReset_state (s : State) : s.softReset.state = .init := rfl
@[simp] theorem State.softReset_type (s : State) : s.softReset.type = 0x00#8 := rfl
@[simp] theorem State.softReset_data (s : State) : s.softReset.data = [] := rfl
@[simp] theorem State.softReset_chk (s : State) : s.softReset.chk = [] := rfl
@[simp] theorem State.softReset_dig (s : State) : s.softReset.dig = [] := rfl
@[simp] theorem State.softReset_rxq (s : State) : s.softReset.rxq = [] := rfl
@[simp] theorem State.softReset_txbuf (s : State) : s.softReset.txbuf = s.txbuf := rfl
@[simp] theorem State.softReset_rxqDepth (s : State) : s.softReset.rxqDepth = s.rxqDepth := rfl
@[simp] theorem State.softReset_inputs (s : State) : s.softReset.inputs = s.inputs := rfl
@[simp] theorem State.softReset_outputs (s : State) : s.softReset.outputs = s.outputs := rfl

/-! ## powerOnReset -/

@[simp] theorem State.powerOnReset_state (s : State) : s.powerOnReset.state = .init := rfl
@[simp] theorem State.powerOnReset_type (s : State) : s.powerOnReset.type = 0x00#8 := rfl
@[simp] theorem State.powerOnReset_data (s : State) : s.powerOnReset.data = [] := rfl
@[simp] theorem State.powerOnReset_chk (s : State) : s.powerOnReset.chk = [] := rfl
@[simp] theorem State.powerOnReset_dig (s : State) : s.powerOnReset.dig = [] := rfl
@[simp] theorem State.powerOnReset_rxq (s : State) : s.powerOnReset.rxq = [] := rfl
@[simp] theorem State.powerOnReset_txbuf (s : State) : s.powerOnReset.txbuf = [] := rfl
@[simp] theorem State.powerOnReset_rxqDepth (s : State) : s.powerOnReset.rxqDepth = s.rxqDepth := rfl
@[simp] theorem State.powerOnReset_inputs (s : State) : s.powerOnReset.inputs = s.inputs := rfl
@[simp] theorem State.powerOnReset_outputs (s : State) : s.powerOnReset.outputs = s.outputs := rfl

/-! ## presentWord -/

@[simp] theorem State.presentWord_state (s : State) (w : Word) : (s.presentWord w).state = s.state := rfl
@[simp] theorem State.presentWord_type (s : State) (w : Word) : (s.presentWord w).type = s.type := rfl
@[simp] theorem State.presentWord_data (s : State) (w : Word) : (s.presentWord w).data = s.data := rfl
@[simp] theorem State.presentWord_chk (s : State) (w : Word) : (s.presentWord w).chk = s.chk := rfl
@[simp] theorem State.presentWord_dig (s : State) (w : Word) : (s.presentWord w).dig = s.dig := rfl
@[simp] theorem State.presentWord_rxq (s : State) (w : Word) : (s.presentWord w).rxq = s.rxq := rfl
@[simp] theorem State.presentWord_txbuf (s : State) (w : Word) : (s.presentWord w).txbuf = s.txbuf := rfl
@[simp] theorem State.presentWord_rxqDepth (s : State) (w : Word) : (s.presentWord w).rxqDepth = s.rxqDepth := rfl
@[simp] theorem State.presentWord_inputs (s : State) (w : Word) : (s.presentWord w).inputs = .hostWord w :: s.inputs := rfl
@[simp] theorem State.presentWord_outputs (s : State) (w : Word) : (s.presentWord w).outputs = s.outputs := rfl

/-! ## the launch state -/

@[simp] theorem State.resetWith_state (d : Nat) : (State.resetWith d).state = .init := rfl
@[simp] theorem State.resetWith_type (d : Nat) : (State.resetWith d).type = 0x00#8 := rfl
@[simp] theorem State.resetWith_data (d : Nat) : (State.resetWith d).data = [] := rfl
@[simp] theorem State.resetWith_chk (d : Nat) : (State.resetWith d).chk = [] := rfl
@[simp] theorem State.resetWith_dig (d : Nat) : (State.resetWith d).dig = [] := rfl
@[simp] theorem State.resetWith_rxq (d : Nat) : (State.resetWith d).rxq = [] := rfl
@[simp] theorem State.resetWith_txbuf (d : Nat) : (State.resetWith d).txbuf = [] := rfl
@[simp] theorem State.resetWith_rxqDepth (d : Nat) : (State.resetWith d).rxqDepth = d := rfl
@[simp] theorem State.resetWith_inputs (d : Nat) : (State.resetWith d).inputs = [] := rfl
@[simp] theorem State.resetWith_outputs (d : Nat) : (State.resetWith d).outputs = [] := rfl

end Sys2Proof.Machine
end

