-- ==== Sys2Proof/Laws/Step.lean ====
section
/-! SUPPORT. One step and runs of steps: what each thing presented at the inputs makes the block do
(spec 30_encoding.md R55, 20_memory.md R52). -/

namespace Sys2Proof.Machine

/-- A host word is decoded and run on the state with it taken. -/
theorem step_hostWord {s : State} {w : Word} {rest : List Input} (h : s.inputs = .hostWord w :: rest) :
    step s = exec (decode w) { s with inputs := rest } := by
  simp [step, present, h]

/-- A received byte is the word 0x100000bb. -/
theorem step_rxByte {s : State} {b : Byte} {rest : List Input} (h : s.inputs = .rxByte b :: rest) :
    step s = exec (decode (rxWord b)) { s with inputs := rest } := by
  simp [step, present, h]

/-- The reset input resets the state with it taken. -/
theorem step_powerOnReset {s : State} {rest : List Input} (h : s.inputs = .powerOnReset :: rest) :
    step s = .next ({ s with inputs := rest } : State).powerOnReset := by
  simp [step, present, h]

/-- The word placed by `withFetchWord` is the next one taken. -/
theorem step_withFetchWord (s : State) (nbits w : Nat) :
    step (s.withFetchWord nbits w) = exec (decode (BitVec.ofNat 32 (w % 2 ^ nbits))) s := by
  rw [step_hostWord (s := s.withFetchWord nbits w) rfl]
  rfl

@[simp] theorem runSteps_zero (s : State) : runSteps 0 s = .next s := rfl

/-- A run of any machine takes its first step and goes on from there, unless that step stops. -/
theorem coreRun_succ (M : Host.Core) (k : Nat) (s : M.State) :
    M.run (k + 1) s = match M.step s with
      | .next t => M.run k t
      | .fault r => .fault r
      | .refused r => .refused r := rfl

/-- A run of any machine that begins with a step to `t` goes on from `t`. -/
theorem coreRun_of_next {M : Host.Core} {k : Nat} {s t : M.State} (h : M.step s = .next t) :
    M.run (k + 1) s = M.run k t := by
  rw [coreRun_succ, h]

/-- A run that begins with a step to `t` is that step and the rest of the run from `t`. -/
theorem runSteps_of_step {k : Nat} {s t : State} (h : step s = .next t) :
    runSteps (k + 1) s = runSteps k t :=
  coreRun_of_next (M := Sys2Proof.core) h

/-- Runs of any machine compose. -/
theorem coreRun_add {M : Host.Core} {j k : Nat} {s t : M.State} (h : M.run j s = .next t) :
    M.run (j + k) s = M.run k t := by
  induction j generalizing s with
  | zero =>
    obtain rfl : s = t := Host.Outcome.next.inj h
    rw [Nat.zero_add]
  | succ j ih =>
    rw [Nat.succ_add, coreRun_succ]
    rw [coreRun_succ] at h
    cases hs : M.step s with
    | next u => rw [hs] at h; exact ih h
    | fault r => rw [hs] at h; exact nomatch h
    | refused r => rw [hs] at h; exact nomatch h

/-- Runs compose. -/
theorem runSteps_add {j k : Nat} {s t : State} (h : runSteps j s = .next t) :
    runSteps (j + k) s = runSteps k t :=
  coreRun_add (M := Sys2Proof.core) h

end Sys2Proof.Machine
end

