-- ==== Sys2Proof/Tests/Slice0.lean ====
section
/-! SUPPORT. Tests of one step each, with expected results from the spec's vectors (95_test_vectors.md; the
vector is named in each comment), tests of decoding, of well-formedness and of the transmit buffer, and for
every statement with hypotheses a witness that meets them together (`test_witness_<statement>`). -/

namespace Sys2Proof.Tests

open Sys2Proof.Machine

/-! ## Helpers -/

/-- The next state of an answer. -/
def nextOf (o : Outcome) : Option State :=
  match o with
  | .next s => some s
  | .fault _ => none
  | .refused _ => none

/-- The fault of an answer. -/
def faultOf (o : Outcome) : Option Fault :=
  match o with
  | .next _ => none
  | .fault r => some r
  | .refused _ => none

/-- The outputs after an answer. -/
def outs (o : Outcome) : Option (List Output) := (nextOf o).map (·.outputs)

/-- The deframer state, the checksum-input buffer and the outputs after an answer. -/
def seen (o : Outcome) : Option (DeframerState × List Byte × List Output) :=
  (nextOf o).map fun s => (s.state, s.chk, s.outputs)

/-- The launch state with a frame of type `t` in progress. -/
def parsing (st : DeframerState) (t : Byte) (data chk dig : List Byte) : State :=
  { State.reset with state := st, type := t, data := data, chk := chk, dig := dig }

/-- A payload of `n` bytes 0x41. -/
def letters (n : Nat) : List Byte := List.replicate n 0x41#8

/-- A frame of type 'c' with `n` payload bytes 0x41 in progress (95 section 5). -/
def parsingLetters (st : DeframerState) (n : Nat) : State :=
  parsing st 0x63#8 (letters n) ([0x3E#8, 0x63#8] ++ letters n) []

/-- The launch state with frames in the queue. -/
def queued (depth : Nat) (fs : List Frame) : State := { State.resetWith depth with rxq := fs }

/-- The frame ('s', [00 FF 5C 3C 3E]) of vector E14 and the frame ('T', [68 69]) of vector E13. -/
def frameS : Frame := ⟨0x73#8, [0x00#8, 0xFF#8, 0x5C#8, 0x3C#8, 0x3E#8]⟩
def frameT : Frame := ⟨0x54#8, [0x68#8, 0x69#8]⟩

/-- The launch state with the transmit buffer's first cells written. -/
def staged (bs : List Byte) : State :=
  { State.reset with txbuf := bs.zipIdx.map fun c => (c.2, c.1) }

/-- CHK3 of the ping frame: the digits 38 35 35 have arrived (95 section 4, R148). -/
def pingAtChk3 (depth : Nat) (fs : List Frame) : State :=
  { queued depth fs with state := .chk3, type := 0x70#8, chk := [0x3E#8, 0x70#8, 0x3C#8, 0x3C#8],
                         dig := [0x38#8, 0x35#8, 0x35#8] }

/-! ## Well-formedness: each check refuses a term -/

theorem test_wf_refuses : ([.rxbInitDiscard 0x3E#8, .rxbDataAppend 0x5C#8, .rxbDataAppend 0x3C#8,
    .rxbDataAppend 0x00#8, .rxbDataOversize 0xFF#8, .rxbDataOversize 0x3E#8, .rxbEscBadEsc 0x30#8,
    .rxbEscBadEsc 0x46#8, .rxbEof2Missing 0x3C#8, .illegal 0x00000000#32, .illegal 0x80000000#32] :
    List Instr).all (fun i => !i.wf) = true := by decide

theorem test_wf_accepts : ([.nop, .rxb 0x3E#8, .txw 2047#11 0xFF#8, .txf 2047#11 0x00#8, .rqb 2047#11,
    .rxbInitDiscard 0x3C#8, .rxbDataAppend 0x30#8, .rxbDataOversize 0x46#8, .rxbEscBadEsc 0x00#8,
    .rxbEscBadEsc 0xFF#8, .rxbEof2Missing 0x3E#8, .illegal 0x10010041#32] :
    List Instr).all (fun i => i.wf) = true := by decide

/-! ## Decoding: words written out from R56, R58 and R60 -/

/-- OP, bit 27, N, bits [15:8] and B written field by field (R56). -/
def wordOf (op : BitVec 4) (b27 : BitVec 1) (n : BitVec 11) (mid : BitVec 8) (b : BitVec 8) : Word :=
  op ++ b27 ++ n ++ mid ++ b

/-- The vectors of 95 sections 1, 3 and 6, one bit field after another. -/
theorem test_decode_operations :
    decode (wordOf 0b0000#4 0#1 0#11 0#8 0#8) = .nop ∧
    decode (wordOf 0b0001#4 0#1 0#11 0#8 0b01011100#8) = .rxb 0x5C#8 ∧
    decode (wordOf 0b0010#4 0#1 0b01111111111#11 0#8 0b01000001#8) = .txw 1023#11 0x41#8 ∧
    decode (wordOf 0b0011#4 0#1 0b10000000001#11 0#8 0b01100011#8) = .txf 1025#11 0x63#8 ∧
    decode (wordOf 0b0100#4 0#1 0#11 0#8 0#8) = .rqh ∧
    decode (wordOf 0b0101#4 0#1 0b00000000101#11 0#8 0#8) = .rqb 5#11 ∧
    decode (wordOf 0b0110#4 0#1 0#11 0#8 0#8) = .rqp ∧
    decode (wordOf 0b0111#4 0#1 0#11 0#8 0#8) = .stat ∧
    decode (wordOf 0b1111#4 0#1 0#11 0#8 0#8) = .rst := by decide

/-- OP 0x8 to 0xE with other bits set (R60). -/
theorem test_decode_reserved :
    decode (wordOf 0b1000#4 1#1 0#11 0#8 1#8) = .reserved8 0x8000001#28 ∧
    decode (wordOf 0b1001#4 0#1 1#11 0#8 0#8) = .reserved9 0x0010000#28 ∧
    decode (wordOf 0b1010#4 0#1 0#11 1#8 0#8) = .reservedA 0x0000100#28 ∧
    decode (wordOf 0b1011#4 0#1 0#11 0#8 2#8) = .reservedB 0x0000002#28 ∧
    decode (wordOf 0b1100#4 0#1 0#11 0#8 0#8) = .reservedC 0x0000000#28 ∧
    decode (wordOf 0b1101#4 1#1 2047#11 255#8 255#8) = .reservedD 0xFFFFFFF#28 ∧
    decode (wordOf 0b1110#4 0#1 0#11 0#8 0#8) = .reservedE 0x0000000#28 := by decide

/-- Vectors X3 to X10, the example of R60, and RQB with bits [15:8] set (log entry 14). -/
theorem test_decode_illegal :
    ([0x00000001#32, 0x18000041#32, 0x10010041#32, 0x20000141#32, 0x40000001#32, 0x50000001#32,
      0x70010000#32, 0xF0000001#32, 0x10000100#32, 0x50000100#32, 0x38000000#32, 0x60010000#32] :
      List Word).all (fun w => decode w == .illegal w) = true := by decide

/-- Every row of RXB is the word 0x100000bb of its byte, which decodes to RXB (log entry 4). -/
theorem test_decode_rows :
    ([(.rxbInitSof, 0x1000003E#32), (.rxbInitDiscard 0x3C#8, 0x1000003C#32), (.rxbSofType 0x3E#8, 0x1000003E#32),
      (.rxbDataBadData3E, 0x1000003E#32), (.rxbDataBadData00, 0x10000000#32), (.rxbDataBadDataFF, 0x100000FF#32),
      (.rxbDataEsc, 0x1000005C#32), (.rxbDataEofOdd, 0x1000003C#32), (.rxbDataEofEven, 0x1000003C#32),
      (.rxbDataAppend 0x30#8, 0x10000030#32), (.rxbDataOversize 0x41#8, 0x10000041#32),
      (.rxbEscTarget3E, 0x1000003E#32), (.rxbEscTarget3EOversize, 0x1000003E#32),
      (.rxbEscTarget3C, 0x1000003C#32), (.rxbEscTarget3COversize, 0x1000003C#32),
      (.rxbEscTarget5C, 0x1000005C#32), (.rxbEscTarget5COversize, 0x1000005C#32),
      (.rxbEscTarget30, 0x10000030#32), (.rxbEscTarget30Oversize, 0x10000030#32),
      (.rxbEscTarget46, 0x10000046#32), (.rxbEscTarget46Oversize, 0x10000046#32),
      (.rxbEscBadEsc 0x31#8, 0x10000031#32), (.rxbEof2Eof, 0x1000003C#32), (.rxbEof2Missing 0x38#8, 0x10000038#32),
      (.rxbChk0Digit0 0x38#8, 0x10000038#32), (.rxbChk1Digit1 0x35#8, 0x10000035#32),
      (.rxbChk2Digit2 0x35#8, 0x10000035#32), (.rxbChk3Verified 0x33#8, 0x10000033#32),
      (.rxbChk3Mismatch 0x34#8, 0x10000034#32)] : List (Instr × Word)).all
      (fun r => encode r.1 == r.2 && decode r.2 == .rxb (r.2.extractLsb' 0 8)) = true := by decide

/-- A string of bits that is no operation word is rejected by name. -/
theorem test_decode_bits :
    decodeBits 33 0 = .error (.longerThanAWord 33) ∧
    decodeBits 8 256 = .error (.valueTooWide 8 256) ∧
    decodeTableWord 32 0x30000070 = some (.txf 0#11 0x70#8) := ⟨rfl, rfl, by decide⟩

/-- A placed word runs as the first operation after reset: vector S1, TXF 'p', 0. -/
theorem test_withFetchWord :
    outs (step (State.reset.withFetchWord 32 0x30000070)) =
      some [.txByte 0x3E#8, .txByte 0x70#8, .txByte 0x3C#8, .txByte 0x3C#8, .txByte 0x38#8, .txByte 0x35#8,
        .txByte 0x35#8, .txByte 0x33#8, .response 0x00000008#32] := by decide

/-! ## The checksum and the encoder -/

/-- Vectors V1 to V6 and V8. -/
theorem test_checksum :
    checksum [] = 0xFFFF#16 ∧ checksum [0xFF#8, 0xFF#8] = 0x0000#16 ∧
    checksum [0xFF#8, 0xFF#8, 0x00#8, 0x01#8] = 0xFFFE#16 ∧
    checksum [0x12#8, 0x34#8, 0x56#8] = 0x97CB#16 ∧ checksum [0x12#8, 0x34#8] = 0xEDCB#16 ∧
    frameChk 0x70#8 [] = 0x8553#16 ∧ frameChk 0xC3#8 [0xC1#8] = 0x0000#16 := by decide

/-- Vector V10. -/
theorem test_hex4 :
    hex4 0xFFFF#16 = [0x66#8, 0x66#8, 0x66#8, 0x66#8] ∧
    hex4 0x00AB#16 = [0x30#8, 0x30#8, 0x61#8, 0x62#8] := by decide

/-- Vectors E14 (every escaped byte, odd length) and E11 (the type byte is not escaped). -/
theorem test_encode :
    encodeFrame frameS.type frameS.payload =
      [0x3E#8, 0x73#8, 0x5C#8, 0x30#8, 0x5C#8, 0x46#8, 0x5C#8, 0x5C#8, 0x5C#8, 0x3C#8, 0x5C#8, 0x3E#8, 0x3C#8,
       0x32#8, 0x36#8, 0x31#8, 0x35#8] ∧
    encodeFrame 0x3E#8 [] =
      [0x3E#8, 0x3E#8, 0x3C#8, 0x3C#8, 0x38#8, 0x35#8, 0x38#8, 0x35#8] := by decide

/-- Vector S2: the checksum of the CoAP example needs the carry fold and has letter digits. -/
theorem test_frameChk_coap :
    frameChk 0x63#8 [0x40#8, 0x01#8, 0x12#8, 0x34#8, 0xB1#8, 0x63#8, 0x61#8, 0x28#8, 0x61#8, 0x04#8] =
      0xBF9A#16 := by decide

/-! ## The operations -/

/-- Vectors T1 and T2. -/
theorem test_txw :
    (nextOf (exec (.txw 1023#11 0x41#8) State.reset)).map (fun s => (s.txbuf, s.outputs)) =
      some ([(1023, 0x41#8)], [.response 0x00000000#32]) ∧
    exec (.txw 1024#11 0x41#8) State.reset =
      .next { State.reset with outputs := [.response 0x20000000#32] } := ⟨by decide, rfl⟩

/-- P5: the frame ('c', [00 30 FF]); P6 step 5: a shorter frame over a longer staged one. -/
theorem test_txf :
    outs (exec (.txf 3#11 0x63#8) (staged [0x00#8, 0x30#8, 0xFF#8])) =
      some (([0x3E#8, 0x63#8, 0x5C#8, 0x30#8, 0x30#8, 0x5C#8, 0x46#8, 0x3C#8, 0x63#8, 0x32#8, 0x32#8, 0x66#8] :
        List Byte).map .txByte ++ [.response 0x0000000C#32]) ∧
    outs (exec (.txf 1#11 0x63#8) (staged [0x43#8, 0x42#8])) =
      some (([0x3E#8, 0x63#8, 0x43#8, 0x3C#8, 0x37#8, 0x65#8, 0x36#8, 0x30#8] : List Byte).map .txByte ++
        [.response 0x00000008#32]) := by decide

/-- Vectors T5, P6 step 6 and T3: the fault at the smallest unwritten cell; BADARG before the fault. -/
theorem test_txf_stops :
    faultOf (exec (.txf 2#11 0x63#8) (staged [0x41#8])) = some (.unwrittenTxbuf 1) ∧
    faultOf (exec (.txf 3#11 0x63#8) (staged [0x43#8, 0x42#8])) = some (.unwrittenTxbuf 2) ∧
    outs (exec (.txf 1025#11 0x63#8) State.reset) = some [.response 0x20000000#32] := by decide

/-- P2 step 19 and vector Q1. -/
theorem test_rqh :
    outs (exec .rqh (queued 4 [frameS, frameT])) = some [.response 0x00050073#32] ∧
    outs (exec .rqh State.reset) = some [.response 0x10000000#32] := by decide

/-- P2 steps 21 and 25, and vector Q2. -/
theorem test_rqb :
    outs (exec (.rqb 1#11) (queued 4 [frameS])) = some [.response 0x000000FF#32] ∧
    outs (exec (.rqb 5#11) (queued 4 [frameS])) = some [.response 0x20000000#32] ∧
    outs (exec (.rqb 0#11) State.reset) = some [.response 0x10000000#32] := by decide

/-- P4 steps 20 to 22 and vector Q3. -/
theorem test_rqp :
    (nextOf (exec .rqp (queued 4 [frameT, frameS]))).map (·.rxq) = some [frameS] ∧
    outs (exec .rqp State.reset) = some [.response 0x10000000#32] := by decide

/-- The R136 row of 95 section 4 (CHK0, DLEN 1) and P2 step 18 (one frame queued). -/
theorem test_stat :
    outs (exec .stat (parsing .chk0 0x63#8 [0x41#8] [0x3E#8, 0x63#8, 0x41#8, 0x3C#8] [])) =
      some [.response 0x00000015#32] ∧
    outs (exec .stat (queued 4 [frameS])) = some [.response 0x00010000#32] := by decide

/-- Vector Q5. -/
theorem test_nop : outs (exec .nop State.reset) = some [.response 0x00000000#32] := by decide

/-- RST with a frame in progress and a frame queued (95 section 6): the transmit buffer stays (R179). -/
theorem test_rst :
    exec .rst { staged [0x41#8] with state := .data, type := 0x63#8, chk := [0x3E#8, 0x63#8], rxq := [frameT] } =
      .next { staged [0x41#8] with outputs := [.response 0x00000000#32] } := rfl

/-- Vectors X1 to X10: response 0x30000000, nothing else. -/
theorem test_illegal : ∀ i ∈ ([.reserved8 0#28, .reserved9 0#28, .reservedA 0#28, .reservedB 0#28, .reservedC 0#28,
    .reservedD 0#28, .reservedE 0#28, .illegal 0x10000100#32] : List Instr),
    nextOf (exec i State.reset) = some { State.reset with outputs := [.response 0x30000000#32] } := by decide

/-! ## The deframer, one vector of 95 section 4 per row; the row and RXB of its byte answer alike -/

theorem test_rxb_init_sof : ∀ i ∈ ([.rxb 0x3E#8, .rxbInitSof] : List Instr),
    seen (exec i State.reset) = some (.sof, [0x3E#8], [.response 0x00000000#32]) := by decide

theorem test_rxb_init_discard : ∀ i ∈ ([.rxb 0x3C#8, .rxbInitDiscard 0x3C#8] : List Instr),
    seen (exec i State.reset) = some (.init, [], [.response 0x00000000#32]) := by decide

/-- A second 0x3E is a type. -/
theorem test_rxb_sof_type : ∀ i ∈ ([.rxb 0x3E#8, .rxbSofType 0x3E#8] : List Instr),
    seen (exec i (parsing .sof 0x00#8 [] [0x3E#8] [])) =
      some (.data, [0x3E#8, 0x3E#8], [.response 0x00000000#32]) := by decide

theorem test_rxb_data_bad_3E : ∀ i ∈ ([.rxb 0x3E#8, .rxbDataBadData3E] : List Instr),
    seen (exec i (parsingLetters .data 0)) =
      some (.init, [], [.diag .badData 0x3E#8, .response 0x00000010#32]) := by decide

theorem test_rxb_data_bad_00 : ∀ i ∈ ([.rxb 0x00#8, .rxbDataBadData00] : List Instr),
    seen (exec i (parsingLetters .data 0)) =
      some (.init, [], [.diag .badData 0x00#8, .response 0x00000010#32]) := by decide

theorem test_rxb_data_bad_FF : ∀ i ∈ ([.rxb 0xFF#8, .rxbDataBadDataFF] : List Instr),
    seen (exec i (parsingLetters .data 1)) =
      some (.init, [], [.diag .badData 0xFF#8, .response 0x00000010#32]) := by decide

theorem test_rxb_data_esc : ∀ i ∈ ([.rxb 0x5C#8, .rxbDataEsc] : List Instr),
    seen (exec i (parsingLetters .data 0)) =
      some (.esc, [0x3E#8, 0x63#8], [.response 0x00000000#32]) := by decide

theorem test_rxb_data_eof_odd : ∀ i ∈ ([.rxb 0x3C#8, .rxbDataEofOdd] : List Instr),
    seen (exec i (parsingLetters .data 1)) =
      some (.chk0, [0x3E#8, 0x63#8, 0x41#8, 0x3C#8], [.response 0x00000000#32]) := by decide

theorem test_rxb_data_eof_even : ∀ i ∈ ([.rxb 0x3C#8, .rxbDataEofEven] : List Instr),
    seen (exec i (parsing .data 0x70#8 [] [0x3E#8, 0x70#8] [])) =
      some (.eof2, [0x3E#8, 0x70#8, 0x3C#8], [.response 0x00000000#32]) := by decide

theorem test_rxb_data_append : ∀ i ∈ ([.rxb 0x30#8, .rxbDataAppend 0x30#8] : List Instr),
    (nextOf (exec i (parsingLetters .data 0))).map (fun s => (s.state, s.data, s.chk)) =
      some (.data, [0x30#8], [0x3E#8, 0x63#8, 0x30#8]) := by decide

/-- Vector Z1. -/
theorem test_rxb_data_oversize : ∀ i ∈ ([.rxb 0x41#8, .rxbDataOversize 0x41#8] : List Instr),
    seen (exec i (parsingLetters .data 1024)) =
      some (.init, [], [.diag .oversize 0x41#8, .response 0x00000030#32]) := by decide +kernel

/-- The five valid targets and the bytes they stand for. -/
theorem test_rxb_esc_target : ∀ r ∈ ([(.rxb 0x3E#8, 0x3E#8), (.rxbEscTarget3E, 0x3E#8), (.rxbEscTarget3C, 0x3C#8),
    (.rxbEscTarget5C, 0x5C#8), (.rxb 0x30#8, 0x00#8), (.rxbEscTarget30, 0x00#8), (.rxb 0x46#8, 0xFF#8),
    (.rxbEscTarget46, 0xFF#8)] : List (Instr × Byte)),
    seen (exec r.1 (parsingLetters .esc 0)) =
      some (.data, [0x3E#8, 0x63#8, r.2], [.response 0x00000000#32]) := by decide

/-- Vector Z5 and the other targets at 1024 bytes. -/
theorem test_rxb_esc_oversize : ∀ r ∈ ([(.rxbEscTarget3EOversize, 0x3E#8), (.rxbEscTarget3COversize, 0x3C#8),
    (.rxbEscTarget5COversize, 0x5C#8), (.rxb 0x30#8, 0x30#8), (.rxbEscTarget30Oversize, 0x30#8),
    (.rxbEscTarget46Oversize, 0x46#8)] : List (Instr × Byte)),
    seen (exec r.1 (parsingLetters .esc 1024)) =
      some (.init, [], [.diag .oversize r.2, .response 0x00000030#32]) := by decide +kernel

/-- Lowercase 'f' is no target. -/
theorem test_rxb_esc_bad : ∀ i ∈ ([.rxb 0x66#8, .rxbEscBadEsc 0x66#8] : List Instr),
    seen (exec i (parsingLetters .esc 0)) =
      some (.init, [], [.diag .badEsc 0x66#8, .response 0x00000020#32]) := by decide

theorem test_rxb_eof2_eof : ∀ i ∈ ([.rxb 0x3C#8, .rxbEof2Eof] : List Instr),
    seen (exec i (parsing .eof2 0x70#8 [] [0x3E#8, 0x70#8, 0x3C#8] [])) =
      some (.chk0, [0x3E#8, 0x70#8, 0x3C#8, 0x3C#8], [.response 0x00000000#32]) := by decide

/-- The 0x3E is consumed. -/
theorem test_rxb_eof2_missing : ∀ i ∈ ([.rxb 0x3E#8, .rxbEof2Missing 0x3E#8] : List Instr),
    seen (exec i (parsing .eof2 0x70#8 [] [0x3E#8, 0x70#8, 0x3C#8] [])) =
      some (.init, [], [.diag .eof2Missing 0x3E#8, .response 0x00000050#32]) := by decide

/-- The first three digits of the ping frame. -/
theorem test_rxb_chk_digits :
    (nextOf (exec (.rxbChk0Digit0 0x38#8) (parsing .chk0 0x70#8 [] [] []))).map (fun s => (s.state, s.dig)) =
      some (.chk1, [0x38#8]) ∧
    (nextOf (exec (.rxbChk1Digit1 0x35#8) (parsing .chk1 0x70#8 [] [] [0x38#8]))).map
      (fun s => (s.state, s.dig)) = some (.chk2, [0x38#8, 0x35#8]) ∧
    (nextOf (exec (.rxbChk2Digit2 0x35#8) (parsing .chk2 0x70#8 [] [] [0x38#8, 0x35#8]))).map
      (fun s => (s.state, s.dig)) = some (.chk3, [0x38#8, 0x35#8, 0x35#8]) := by decide

theorem test_rxb_chk3_verified : ∀ i ∈ ([.rxb 0x33#8, .rxbChk3Verified 0x33#8] : List Instr),
    (nextOf (exec i (pingAtChk3 4 []))).map (fun s => (s.state, s.rxq, s.outputs)) =
      some (.init, [⟨0x70#8, []⟩], [.frame ⟨0x70#8, []⟩, .response 0x00000003#32]) := by decide

/-- P4 step 18, with the ping frame: the queue is full. -/
theorem test_rxb_chk3_overflow :
    (nextOf (exec (.rxb 0x33#8) (pingAtChk3 1 [frameT]))).map (fun s => (s.rxq, s.outputs)) =
      some ([frameT], [.frame ⟨0x70#8, []⟩, .diag .rxqOverflow 0x33#8, .response 0x00000061#32]) := by decide

theorem test_rxb_chk3_mismatch : ∀ i ∈ ([.rxb 0x34#8, .rxbChk3Mismatch 0x34#8] : List Instr),
    seen (exec i (pingAtChk3 4 [])) =
      some (.init, [], [.diag .checksum 0x34#8, .response 0x00000040#32]) := by decide

/-- A row met in another state acts as RXB of its byte (log entry 4). -/
theorem test_row_in_another_state :
    seen (exec .rxbDataEsc State.reset) = some (.init, [], [.response 0x00000000#32]) := by decide

/-! ## The transmit buffer's canonical form -/

theorem test_memory_wf :
    Memory.wf [(0, 0x41#8), (1023, 0x42#8)] = true ∧ Memory.wf [(1, 0x41#8), (0, 0x42#8)] = false ∧
    Memory.wf [(1, 0x41#8), (1, 0x42#8)] = false ∧ Memory.wf [(1024, 0x41#8)] = false := by decide

/-- Writing a cell twice keeps the second value, in any order of the cells (R115). -/
theorem test_memory_write :
    ((Memory.write [] 5 0x41#8).write 3 0x42#8).write 5 0x43#8 = [(3, 0x42#8), (5, 0x43#8)] := by decide

/-! ## Witnesses: for each statement with hypotheses, a state and operands that meet them together -/

/-- All 1024 cells of the transmit buffer hold 0x41. -/
def fullBuffer : Memory := (List.range' 0 1024).map fun a => (a, 0x41#8)

/-- Every cell of a run of cells reads as 0x41. -/
theorem read_cells (n a k : Nat) (h : k < n) :
    Memory.read ((List.range' a n).map fun i => (i, 0x41#8)) (a + k) = some 0x41#8 := by
  induction n generalizing a k with
  | zero => omega
  | succ n ih =>
    cases k with
    | zero => simp [List.range'_succ, Memory.read]
    | succ k =>
      have h1 : a + (k + 1) = a + 1 + k := by omega
      have h2 : a + (k + 1) ≠ a := by omega
      simp only [List.range'_succ, List.map_cons, Memory.read, h2, if_false]
      rw [h1]
      exact ih (a + 1) k (by omega)

/-- The launch state of depth `d` with these inputs presented. -/
def presented (d : Nat) (is : List Input) : State := { State.resetWith d with inputs := is }

theorem test_witness_DecodeOfEncodeIsTheOperation :
    (Instr.txf 2047#11 0xFF#8).wf = true ∧ (Instr.illegal 0x10010041#32).wf = true ∧
    (Instr.rxbDataAppend 0x30#8).wf = true ∧ (Instr.reservedE 0xFFFFFFF#28).wf = true := by decide

theorem test_witness_AWordSelectsAtMostOneRow :
    opSelects .rxb 0x1000005C#32 = true ∧ opSelects .res8 0x8FFFFFFF#32 = true := by decide

theorem test_witness_IllegalOperationsChangeNothing :
    Instr.illegal 0x80000000#32 ∈ [Instr.reserved8 0#28, .illegal 0x80000000#32] ∧
    ∀ row ∈ [(0x00000000#32, 0xFFFFFFFF#32), (0x10000000#32, 0xFFFFFF00#32), (0x20000000#32, 0xF800FF00#32),
      (0x30000000#32, 0xF800FF00#32), (0x40000000#32, 0xFFFFFFFF#32), (0x50000000#32, 0xF80000FF#32),
      (0x60000000#32, 0xFFFFFFFF#32), (0x70000000#32, 0xFFFFFFFF#32), (0xF0000000#32, 0xFFFFFFFF#32)],
      0x80000000#32 &&& row.2 ≠ row.1 ∧ 0x10000100#32 &&& row.2 ≠ row.1 := by simp

theorem test_witness_AStepRunsThePresentedOperation :
    (presented 4 [.hostWord 0x70000000#32, .rxByte 0x3E#8]).inputs =
      .hostWord 0x70000000#32 :: [.rxByte 0x3E#8] ∧
    decode 0x70000000#32 = .stat ∧
    (presented 4 [.rxByte 0x3E#8]).inputs = .rxByte 0x3E#8 :: [] := ⟨rfl, by decide, rfl⟩

theorem test_witness_WithNothingPresentedTheStateHolds : State.reset.inputs = [] := rfl

theorem test_witness_PowerOnResetLeavesTheResetState :
    (presented 4 [.powerOnReset, .hostWord 0#32]).inputs = .powerOnReset :: [.hostWord 0#32] := rfl

theorem test_witness_InvariantHoldsAtReset : 1 ≤ 1 ∧ 1 ≤ 255 ∧ 255 ≤ 255 := by decide

/-- A state in the middle of a frame, and the step that takes the byte presented. -/
theorem test_witness_EveryStepKeepsTheInvariant :
    ({ parsingLetters .data 1 with inputs := [.rxByte 0x3C#8] } : State).Inv ∧
    (nextOf (step { parsingLetters .data 1 with inputs := [.rxByte 0x3C#8] })).isSome = true := by decide

/-- At the bounds: 1024 payload bytes in CHK3, a queue of 255, all 1024 cells written. -/
def atTheBounds : State :=
  { State.resetWith 255 with
    state := .chk3
    type := 0x63#8
    data := letters 1024
    chk := [0x3E#8, 0x63#8] ++ letters 1024 ++ [0x3C#8, 0x3C#8]
    dig := [0x30#8, 0x32#8, 0x64#8]
    rxq := List.replicate 255 frameT
    txbuf := fullBuffer }

theorem test_witness_InvariantBoundsTheBuffers : atTheBounds.Inv ∧ 1024 ≤ 1024 := by decide +kernel

theorem test_witness_TxwWritesOneCell :
    0x23FF0041#32 &&& 0xF800FF00#32 = 0x20000000#32 ∧ 1024 ≤ (1024#11 : Index).toNat ∧
    (1023#11 : Index).toNat < 1024 := by decide

theorem test_witness_TxfSendsTheStagedFrame :
    0x30000070#32 &&& 0xF800FF00#32 = 0x30000000#32 ∧ 1024 < (1025#11 : Index).toNat ∧
    (1024#11 : Index).toNat ≤ 1024 ∧ (letters 1024).length = (1024#11 : Index).toNat ∧
    (0#11 : Index).toNat ≤ 1024 ∧ ([] : List Byte).length = (0#11 : Index).toNat := by decide +kernel

/-- `n` cells of 0x41 stage the payload of `n` bytes 0x41. -/
theorem staged_letters (n i : Nat) (h : i < (letters n).length) :
    Memory.read ((List.range' 0 n).map fun a => (a, 0x41#8)) i = some (letters n)[i] := by
  have := read_cells n 0 i (by simpa [letters] using h)
  rw [Nat.zero_add] at this
  simpa [letters] using this

/-- The staged payload of the largest TXF. -/
theorem test_witness_TxfSendsTheStagedFrame_cells :
    ∀ i, (h : i < (letters 1024).length) →
      ({ State.reset with txbuf := fullBuffer } : State).txbuf.read i = some (letters 1024)[i] :=
  fun i h => staged_letters 1024 i h

/-- The fault of TXF: cell 1 is the smallest unwritten one below 2 (vector T5). -/
theorem test_witness_TxfSendsTheStagedFrame_fault :
    (2#11 : Index).toNat ≤ 1024 ∧ 1 < (2#11 : Index).toNat ∧ (staged [0x41#8]).txbuf.read 1 = none ∧
    ∀ j, j < 1 → (staged [0x41#8]).txbuf.read j ≠ none := by decide

/-- The payload bound of the statements about frames, at both ends. -/
theorem test_witness_EncodedFramesHaveBoundedLengthAndAlphabet :
    ([] : List Byte).length ≤ 1024 ∧ (letters 1024).length ≤ 1024 ∧
    (([0x3E#8] : List Byte).flatMap escapeByte)[1]? = some 0x3E#8 := by decide +kernel

theorem test_witness_TwoFoldsAreExact : (letters 1028).length ≤ 1028 ∧ 2 ^ 32 - 1 < 2 ^ 32 ∧ 0 < 2 ^ 32 := by
  decide +kernel

theorem test_witness_OneInvertedBitChangesTheChecksum :
    (letters 1028).length ≤ 1028 ∧ (letters 1028)[1027]? = some 0x41#8 ∧ 7 < 8 := by decide +kernel

theorem test_witness_OneInvertedPayloadBitChangesTheDigits :
    (letters 1024).length ≤ 1024 ∧ (letters 1024)[1023]? = some 0x41#8 ∧ 0 < 8 := by decide +kernel

theorem test_witness_NoFrameHasChecksumFFFF : (letters 1024).length ≤ 1024 := by decide +kernel

theorem test_witness_RxbInInit : State.reset.state = .init ∧ 0x3C#8 ≠ 0x3E#8 := by decide

theorem test_witness_RxbCapturesTheType :
    (parsing .sof 0x00#8 [] [0x3E#8] []).state = .sof ∧ Instr.rxbSofType 0x3E#8 ∈ [Instr.rxbSofType 0x3E#8] := by
  decide

theorem test_witness_RxbForbiddenByteInData :
    (parsingLetters .data 0).state = .data ∧ Instr.rxbDataBadData3E ∈ [Instr.rxb 0x3E#8, .rxbDataBadData3E] ∧
    Instr.rxb 0x00#8 ∈ [Instr.rxb 0x00#8, .rxbDataBadData00] ∧
    Instr.rxbDataBadDataFF ∈ [Instr.rxb 0xFF#8, .rxbDataBadDataFF] := by decide

theorem test_witness_RxbEntersEscape : (parsingLetters .data 1024).state = .data := rfl

theorem test_witness_RxbEndsThePayload :
    (parsingLetters .data 1023).state = .data ∧ (parsingLetters .data 1023).data.length % 2 = 1 ∧
    (parsingLetters .data 0).data.length % 2 = 0 ∧ (parsingLetters .data 1024).data.length % 2 = 0 := by
  decide +kernel

theorem test_witness_RxbAppendsAnOrdinaryByte :
    (parsingLetters .data 1023).state = .data ∧ 0x30#8 ∉ [0x5C#8, 0x3C#8, 0x3E#8, 0x00#8, 0xFF#8] ∧
    (parsingLetters .data 1023).data.length < 1024 ∧ (parsingLetters .data 1024).data.length = 1024 := by
  decide +kernel

theorem test_witness_RxbAppendsTheUnescapedByte :
    (parsingLetters .esc 1023).state = .esc ∧ (parsingLetters .esc 1023).data.length < 1024 ∧
    Instr.rxbEscTarget3E ∈ [Instr.rxb 0x3E#8, .rxbEscTarget3E] ∧
    Instr.rxbEscTarget3C ∈ [Instr.rxb 0x3C#8, .rxbEscTarget3C] ∧
    Instr.rxbEscTarget5C ∈ [Instr.rxb 0x5C#8, .rxbEscTarget5C] ∧
    Instr.rxbEscTarget30 ∈ [Instr.rxb 0x30#8, .rxbEscTarget30] ∧
    Instr.rxbEscTarget46 ∈ [Instr.rxb 0x46#8, .rxbEscTarget46] := by decide +kernel

theorem test_witness_RxbOversizeInEscape :
    (parsingLetters .esc 1024).state = .esc ∧ (parsingLetters .esc 1024).data.length = 1024 ∧
    Instr.rxbEscTarget3EOversize ∈ [Instr.rxb 0x3E#8, .rxbEscTarget3EOversize] ∧
    Instr.rxbEscTarget3COversize ∈ [Instr.rxb 0x3C#8, .rxbEscTarget3COversize] ∧
    Instr.rxbEscTarget5COversize ∈ [Instr.rxb 0x5C#8, .rxbEscTarget5COversize] ∧
    Instr.rxbEscTarget30Oversize ∈ [Instr.rxb 0x30#8, .rxbEscTarget30Oversize] ∧
    Instr.rxbEscTarget46Oversize ∈ [Instr.rxb 0x46#8, .rxbEscTarget46Oversize] := by decide +kernel

theorem test_witness_RxbRejectsABadTarget :
    (parsingLetters .esc 1024).state = .esc ∧ 0x00#8 ∉ [0x3E#8, 0x3C#8, 0x5C#8, 0x30#8, 0x46#8] := by decide

theorem test_witness_RxbExpectsASecondEof :
    (parsing .eof2 0x70#8 [] [0x3E#8, 0x70#8, 0x3C#8] []).state = .eof2 ∧ 0x3E#8 ≠ 0x3C#8 := by decide

theorem test_witness_RxbCollectsDigits :
    (parsing .chk0 0x70#8 [] [] []).state = .chk0 ∧ (parsing .chk1 0x70#8 [] [] []).state = .chk1 ∧
    (parsing .chk2 0x70#8 [] [] []).state = .chk2 ∧
    Instr.rxbChk2Digit2 0x3C#8 ∈ [Instr.rxb 0x3C#8, .rxbChk2Digit2 0x3C#8] := by decide

theorem test_witness_RxbDeliversAVerifiedFrame :
    (pingAtChk3 4 []).state = .chk3 ∧
    (pingAtChk3 4 []).dig ++ [0x33#8] = hex4 (checksum (pingAtChk3 4 []).chk) ∧
    (pingAtChk3 4 []).rxq.length < (pingAtChk3 4 []).rxqDepth ∧
    (pingAtChk3 1 [frameT]).dig ++ [0x33#8] = hex4 (checksum (pingAtChk3 1 [frameT]).chk) ∧
    (pingAtChk3 1 [frameT]).rxqDepth ≤ (pingAtChk3 1 [frameT]).rxq.length := by decide

theorem test_witness_RxbDiscardsAMismatch :
    (pingAtChk3 4 []).state = .chk3 ∧
    (pingAtChk3 4 []).dig ++ [0x34#8] ≠ hex4 (checksum (pingAtChk3 4 []).chk) := by decide

theorem test_witness_RowsOfRxbAgreeWithRxb : Instr.rxbDataEsc.rxByte = some 0x5C#8 := rfl

theorem test_witness_ExactlyOneCaseApplies : (parsingLetters .esc 1024).data.length ≤ 1024 := by decide +kernel

/-- The longest payload, with room in the queue and with the queue full, and bytes after the frame. -/
theorem test_witness_AnEncodedFrameIsReceived :
    (letters 1024).length ≤ 1024 ∧
    (presented 4 ((encodeFrame 0x63#8 (letters 1024)).map .rxByte ++ [.hostWord 0#32])).state = .init ∧
    (presented 4 ((encodeFrame 0x63#8 (letters 1024)).map .rxByte ++ [.hostWord 0#32])).inputs =
      (encodeFrame 0x63#8 (letters 1024)).map .rxByte ++ [.hostWord 0#32] ∧
    (presented 4 []).rxq.length < (presented 4 []).rxqDepth ∧
    (queued 1 [frameT]).rxqDepth ≤ (queued 1 [frameT]).rxq.length :=
  ⟨by decide +kernel, rfl, rfl, by decide, by decide⟩

/-- The ping frame with the digits "8554". -/
theorem test_witness_AFrameWithOtherDigitsIsDiscarded :
    ([] : List Byte).length ≤ 1024 ∧ [0x38#8, 0x35#8, 0x35#8, 0x34#8] ≠ hex4 (frameChk 0x70#8 []) ∧
    (presented 4 [.rxByte 0x3E#8, .rxByte 0x70#8, .rxByte 0x3C#8, .rxByte 0x3C#8, .rxByte 0x38#8, .rxByte 0x35#8,
      .rxByte 0x35#8, .rxByte 0x34#8]).state = .init ∧
    (presented 4 [.rxByte 0x3E#8, .rxByte 0x70#8, .rxByte 0x3C#8, .rxByte 0x3C#8, .rxByte 0x38#8, .rxByte 0x35#8,
      .rxByte 0x35#8, .rxByte 0x34#8]).inputs =
      ((encodeFrame 0x70#8 []).dropLast.dropLast.dropLast.dropLast ++
        [0x38#8, 0x35#8, 0x35#8, 0x34#8]).map .rxByte ++ [] := by decide

/-- SOF, and 2055 bytes to come. -/
theorem test_witness_TheDeframerReturnsToInit :
    ({ parsing .sof 0x00#8 [] [0x3E#8] [] with inputs := (letters 2055).map .rxByte } : State).Inv ∧
    (parsing .sof 0x00#8 [] [0x3E#8] []).state ≠ .init ∧ (letters 2055).length = 2055 ∧
    ({ parsing .sof 0x00#8 [] [0x3E#8] [] with inputs := (letters 2055).map .rxByte } : State).inputs =
      (letters 2055).map .rxByte ++ [] ∧
    State.reset.state = .init ∧ 0x41#8 ≠ 0x3E#8 :=
  ⟨⟨by decide +kernel, by decide, by decide, rfl⟩, by decide, by decide +kernel, (List.append_nil _).symm,
    rfl, by decide⟩

theorem test_witness_RqhReadsTheHeader :
    State.reset.rxq = [] ∧ (queued 4 [⟨0x63#8, letters 1024⟩]).rxq = ⟨0x63#8, letters 1024⟩ :: [] ∧
    (letters 1024).length ≤ 1024 := ⟨rfl, rfl, by decide +kernel⟩

theorem test_witness_RqbReadsAPayloadByte :
    0x57FF0000#32 &&& 0xF800FFFF#32 = 0x50000000#32 ∧ State.reset.rxq = [] ∧
    (queued 4 [frameT]).rxq = ⟨0x54#8, [0x68#8, 0x69#8]⟩ :: [] ∧
    ([0x68#8, 0x69#8] : List Byte).length ≤ (2#11 : Index).toNat ∧
    (1#11 : Index).toNat < ([0x68#8, 0x69#8] : List Byte).length := by decide

theorem test_witness_RqpRemovesTheHead :
    State.reset.rxq = [] ∧ (queued 4 [frameT, frameS]).rxq = frameT :: [frameS] := by decide

/-- The statements about every operation that answers a next state: one that queues, one that removes. -/
theorem test_witness_TheQueueIsFirstInFirstOut :
    (nextOf (exec (.rxb 0x33#8) (pingAtChk3 4 []))).isSome = true ∧
    (nextOf (exec .rqp (queued 4 [frameT]))).isSome = true ∧
    (nextOf (exec .rst (queued 4 [frameT]))).isSome = true := by decide

theorem test_witness_StatReportsTheState :
    (parsingLetters .data 1024).data.length ≤ 1024 ∧
    (queued 255 (List.replicate 255 frameT)).rxq.length ≤ 255 := by decide +kernel

theorem test_witness_NopOnlyAnswers :
    (0x08000000#32).extractLsb' 28 4 = 0x0#4 ∧ 0x08000000#32 ≠ 0x00000000#32 := by decide

/-- A status other than OK: EMPTY. -/
theorem test_witness_EveryOperationAnswersOnce :
    (nextOf (exec .rqh State.reset)).isSome = true ∧ (0x10000000#32).extractLsb' 28 4 ≠ 0#4 := by decide

theorem test_witness_EachPartIsWrittenByItsOwnOperations :
    (nextOf (exec (.txw 0#11 0x41#8) State.reset)).isSome = true ∧ Instr.stat.rxByte = none ∧
    Instr.stat ≠ .rst ∧ Instr.stat ≠ .rqp ∧ (∀ n b, Instr.stat ≠ .txw n b) :=
  ⟨by decide, rfl, by decide, by decide, fun _ _ h => nomatch h⟩

/-- TXW twice. -/
theorem test_witness_IdempotentOperationsRepeatWithoutEffect :
    (Instr.txw 0#11 0x41#8).rxByte = none ∧ Instr.txw 0#11 0x41#8 ≠ .rqp ∧
    ((nextOf (exec (.txw 0#11 0x41#8) State.reset)).bind fun t =>
      nextOf (exec (.txw 0#11 0x41#8) t)).isSome = true := by decide

/-- The level rises at a frame that joins an empty queue and falls at RQP and at RST. -/
theorem test_witness_RxqNonemptyFollowsTheQueue :
    (pingAtChk3 4 []).rxqNonempty = false ∧
    (nextOf (exec (.rxb 0x33#8) (pingAtChk3 4 []))).map (·.rxqNonempty) = some true ∧
    (queued 4 [frameT]).rxqNonempty = true ∧
    (nextOf (exec .rqp (queued 4 [frameT]))).map (·.rxqNonempty) = some false ∧
    (nextOf (exec .rst (queued 4 [frameT, frameS]))).map (·.rxqNonempty) = some false := by decide

theorem test_witness_EncoderAndDeframerShareNoState :
    (nextOf (exec (.rxb 0x3E#8) State.reset)).isSome = true ∧
    (nextOf (exec (.txf 1#11 0x63#8) (staged [0x41#8]))).isSome = true ∧
    ({ staged [0x41#8] with state := .esc } : State).txbuf = (staged [0x41#8]).txbuf := by decide

end Sys2Proof.Tests
end

section
/-! PROOFS. The launch state and the invariant (spec 10_state.md R23 to R30): the table of R26 as one row per
deframer state, what each case of RXB does to it, and that every step keeps the whole invariant. -/

namespace Sys2Proof.Machine

/-! ## The table of R26, one row per deframer state -/

/-- The row of R26's table for the deframer state `d`: what the buffers hold while it is held. -/
def State.ParserRow (s : State) : DeframerState → Prop
  | .init => s.data = [] ∧ s.chk = [] ∧ s.dig = []
  | .sof => s.data = [] ∧ s.chk = [sofByte] ∧ s.dig = []
  | .data | .esc => s.chk = s.frameSoFar ∧ s.dig = []
  | .eof2 => s.data.length % 2 = 0 ∧ s.chk = s.frameSoFar ++ [eofByte] ∧ s.dig = []
  | .chk0 => s.chk = s.frameSoFar ++ eofPadding s.data.length ∧ s.dig = []
  | .chk1 => s.chk = s.frameSoFar ++ eofPadding s.data.length ∧ s.dig.length = 1
  | .chk2 => s.chk = s.frameSoFar ++ eofPadding s.data.length ∧ s.dig.length = 2
  | .chk3 => s.chk = s.frameSoFar ++ eofPadding s.data.length ∧ s.dig.length = 3

/-- The parser's invariant is the payload bound and the row of the state that is held: the other rows' premises
are false. -/
theorem State.parserInv_iff (s : State) :
    s.ParserInv ↔ s.data.length ≤ maxPayload ∧ s.ParserRow s.state := by
  cases h : s.state <;> simp [State.ParserInv, State.ParserRow, h]

/-- The row of a state that is known to be held. -/
theorem State.ParserInv.row {s : State} {d : DeframerState} (h : s.ParserInv) (hd : s.state = d) :
    s.ParserRow d :=
  hd ▸ (s.parserInv_iff.mp h).2

/-- INIT with empty buffers meets the table (R26, R150). -/
theorem State.parserInv_of_init {s : State} (hs : s.state = .init) (hd : s.data = []) (hc : s.chk = [])
    (hg : s.dig = []) : s.ParserInv :=
  s.parserInv_iff.mpr ⟨by simp [hd], hs ▸ ⟨hd, hc, hg⟩⟩

/-- The unescaped frame so far is two bytes longer than the payload. -/
theorem State.frameSoFar_length (s : State) : s.frameSoFar.length = s.data.length + 2 := by
  rw [State.frameSoFar, List.length_append]
  exact Nat.add_comm _ _

/-- The padding is at most two bytes (R94). -/
theorem eofPadding_length_le (n : Nat) : (eofPadding n).length ≤ 2 := by
  rw [eofPadding_length]
  split <;> decide

/-- The checksum-input buffer is at most four bytes longer than the payload (R24). -/
theorem State.ParserInv.chk_length_le {s : State} (h : s.ParserInv) :
    s.chk.length ≤ s.data.length + 4 := by
  have hf := s.frameSoFar_length
  have hp := eofPadding_length_le s.data.length
  have hrow := h.row rfl
  cases hs : s.state <;> rw [hs] at hrow
  case init | sof =>
    obtain ⟨-, hc, -⟩ := hrow
    simp [hc]
  case data | esc =>
    obtain ⟨hc, -⟩ := hrow
    rw [hc]
    omega
  case eof2 =>
    obtain ⟨-, hc, -⟩ := hrow
    simp [hc, hf]
  case chk0 | chk1 | chk2 | chk3 =>
    obtain ⟨hc, -⟩ := hrow
    rw [hc, List.length_append]
    omega

/-- The digit buffer never holds the fourth digit: CHK3 compares it as it arrives (R25). -/
theorem State.ParserInv.dig_length_le {s : State} (h : s.ParserInv) : s.dig.length ≤ 3 := by
  have hrow := h.row rfl
  cases hs : s.state <;> rw [hs] at hrow
  case init | sof | eof2 =>
    obtain ⟨-, -, hg⟩ := hrow
    simp [hg]
  case data | esc | chk0 =>
    obtain ⟨-, hg⟩ := hrow
    simp [hg]
  case chk1 | chk2 | chk3 =>
    obtain ⟨-, hg⟩ := hrow
    omega

/-! ## What each case of RXB does to the table -/

/-- A payload byte taken with room left keeps the table (R138, R140). -/
theorem rxEscAppend_keeps_parserInv {s : State} (v : Byte) (h : s.ParserInv)
    (hs : s.state = .data ∨ s.state = .esc) (hroom : s.data.length < maxPayload) :
    (rxEscAppend v s).next.ParserInv := by
  have hrow : s.chk = s.frameSoFar ∧ s.dig = [] := hs.elim h.row h.row
  obtain ⟨hc, hg⟩ := hrow
  refine (State.parserInv_iff _).mpr ⟨?_, ?_, hg⟩
  · simpa [rxEscAppend, quiet] using hroom
  · simp [rxEscAppend, quiet, State.frameSoFar, hc]

/-- In DATA, appending an ordinary byte is what appending an unescaped one is in ESC (R138, R140). -/
theorem rxDataAppend_eq_rxEscAppend {s : State} (b : Byte) (hs : s.state = .data) :
    rxDataAppend b s = rxEscAppend b s := by
  rw [rxDataAppend, rxEscAppend, ← hs]

/-- The parser's reset meets the table, so every framing error does (R150, R194). -/
theorem violation_parserInv (d : Diag) (s : State) : (violation d s).next.ParserInv :=
  State.parserInv_of_init rfl rfl rfl rfl

/-- Every case of RXB, where its condition holds, keeps the table of R26. -/
theorem rxRuleEffect_keeps_parserInv {r : RxRule} {b : Byte} {s : State} (h : s.ParserInv)
    (ha : rxRuleApplies r b s = true) : (rxRuleEffect r b s).next.ParserInv := by
  have hlen : s.data.length ≤ maxPayload := (s.parserInv_iff.mp h).1
  cases r <;> simp only [rxRuleApplies, Bool.and_eq_true, beq_iff_eq, decide_eq_true_eq, and_assoc] at ha
  case initSof => exact (State.parserInv_iff _).mpr ⟨Nat.zero_le _, rfl, rfl, rfl⟩
  case initDiscard => exact h
  case sofType =>
    obtain ⟨hd, hc, hg⟩ := h.row ha
    exact (State.parserInv_iff _).mpr ⟨hlen,
      by simp [rxRuleEffect, rxSofType, quiet, State.frameSoFar, hd, hc], hg⟩
  case dataEsc =>
    obtain ⟨hs, -⟩ := ha
    exact (State.parserInv_iff _).mpr ⟨hlen, h.row hs⟩
  case dataEofOdd =>
    obtain ⟨hs, -, hodd⟩ := ha
    obtain ⟨hc, hg⟩ := h.row hs
    exact (State.parserInv_iff _).mpr ⟨hlen,
      by simp [rxRuleEffect, rxDataEofOdd, quiet, State.frameSoFar, hc, eofPadding, hodd], hg⟩
  case dataEofEven =>
    obtain ⟨hs, -, heven⟩ := ha
    obtain ⟨hc, hg⟩ := h.row hs
    exact (State.parserInv_iff _).mpr ⟨hlen, heven,
      by simp [rxRuleEffect, rxDataEofEven, quiet, State.frameSoFar, hc], hg⟩
  case dataAppend =>
    obtain ⟨hs, -, hroom⟩ := ha
    rw [rxRuleEffect, rxDataAppend_eq_rxEscAppend b hs]
    exact rxEscAppend_keeps_parserInv b h (.inl hs) hroom
  case escAppend =>
    obtain ⟨hs, -, hroom⟩ := ha
    exact rxEscAppend_keeps_parserInv _ h (.inr hs) hroom
  case eof2Eof =>
    obtain ⟨hs, -⟩ := ha
    obtain ⟨heven, hc, hg⟩ := h.row hs
    exact (State.parserInv_iff _).mpr ⟨hlen,
      by simp [rxRuleEffect, rxEof2Eof, quiet, State.frameSoFar, hc, eofPadding, heven], hg⟩
  case chk0 | chk1 | chk2 =>
    obtain ⟨hc, hg⟩ := h.row ha
    exact (State.parserInv_iff _).mpr ⟨hlen, hc,
      by simp [rxRuleEffect, rxChk0, rxChk1, rxChk2, quiet, hg]⟩
  case chk3Verified =>
    rw [rxRuleEffect, rxChk3Verified]
    split <;> exact State.parserInv_of_init rfl rfl rfl rfl
  case dataForbidden | dataOversize | escOversize | escBad | eof2Missing | chk3Mismatch =>
    exact violation_parserInv _ s

/-! ## What leaves the invariant alone -/

/-- The invariant does not read the outputs. -/
@[simp] theorem State.inv_emit (s : State) (os : List Output) : (s.emit os).Inv ↔ s.Inv := Iff.rfl

/-- The invariant does not read the inputs. -/
theorem State.Inv.with_inputs {s : State} (h : s.Inv) (is : List Input) :
    ({ s with inputs := is } : State).Inv := h

/-- An answer keeps the invariant of the state it answers from. -/
theorem inv_of_answer {s t : State} {st : Status} {d : BitVec 28} (h : s.Inv)
    (ht : answer s st d = .next t) : t.Inv := by
  obtain rfl := Host.Outcome.next.inj ht
  exact (s.inv_emit _).mpr h

/-! ## The named updates keep the invariant -/

/-- A write inside the transmit buffer keeps the invariant (R115). -/
theorem State.Inv.writeTxbuf {s : State} (h : s.Inv) {n : Nat} (b : Byte) (hn : n < txbufSize) :
    (s.writeTxbuf n b).Inv := by
  obtain ⟨hp, hq, hd, hw⟩ := h
  exact ⟨hp, hq, hd, Memory.wf_write b hw hn⟩

/-- Removing the oldest frame keeps the invariant (R176). -/
theorem State.Inv.dequeue {s : State} (h : s.Inv) : s.dequeue.Inv := by
  obtain ⟨hp, ⟨hlen, hfs⟩, hd, hw⟩ := h
  refine ⟨hp, ⟨?_, fun f hf => hfs f (List.mem_of_mem_tail hf)⟩, hd, hw⟩
  rw [State.dequeue_rxq, List.length_tail]
  exact (Nat.sub_le _ _).trans hlen

/-- A block with a reset parser, an empty queue, a depth in range and a canonical transmit buffer meets the
invariant. -/
theorem State.inv_of_cleared {s : State} (hp : s.ParserInv) (hq : s.rxq = []) (hd : s.DepthInv)
    (hw : s.txbuf.wf = true) : s.Inv :=
  ⟨hp, ⟨by simp [hq], by simp [hq]⟩, hd, hw⟩

/-- The launch state of a legal depth meets the invariant (R30). -/
theorem State.resetWith_inv {d : Nat} (hmin : 1 ≤ d) (hmax : d ≤ 255) : (State.resetWith d).Inv :=
  State.inv_of_cleared (State.parserInv_of_init rfl rfl rfl rfl) rfl ⟨hmin, hmax⟩ Memory.wf_nil

/-- The soft reset keeps the invariant (R179). -/
theorem State.Inv.softReset {s : State} (h : s.Inv) : s.softReset.Inv := by
  obtain ⟨-, -, hd, hw⟩ := h
  exact State.inv_of_cleared (State.parserInv_of_init rfl rfl rfl rfl) rfl hd hw

/-- Power-on reset keeps the invariant (R215). -/
theorem State.Inv.powerOnReset {s : State} (h : s.Inv) : s.powerOnReset.Inv := by
  obtain ⟨-, -, ⟨hmin, hmax⟩, -⟩ := h
  exact State.resetWith_inv hmin hmax

/-! ## Every operation keeps the invariant -/

/-- RXB and its rows all run RXB of their byte (R152; log entry 4). -/
theorem exec_of_rxByte {i : Instr} {b : Byte} (hb : i.rxByte = some b) (s : State) :
    exec i s = execRxb b s := by
  cases i <;> cases hb
  case rxb => rfl
  all_goals exact rxbRow_eq _ _ s

/-- RXB keeps the invariant: its case keeps the table, and it queues a frame only where there is room. -/
theorem execRxb_keeps_inv {b : Byte} {s t : State} (h : s.Inv) (ht : execRxb b s = .next t) : t.Inv := by
  obtain ⟨hp, ⟨hlen, hfs⟩, hd, hw⟩ := h
  have hdata : s.data.length ≤ maxPayload := (s.parserInv_iff.mp hp).1
  have hparser : t.ParserInv := by
    obtain rfl := Host.Outcome.next.inj ht
    exact rxRuleEffect_keeps_parserInv hp (applies_rxRuleOf b hdata)
  obtain ⟨hdep, -, htx, hrxq⟩ := execRxb_frame ht
  refine ⟨hparser, ?_, by rwa [State.DepthInv, hdep], by rwa [htx]⟩
  rw [State.QueueInv, hdep]
  rcases hrxq with hsame | ⟨hroom, hpush, -⟩
  · rw [hsame]
    exact ⟨hlen, hfs⟩
  · rw [hpush, List.length_append]
    exact ⟨hroom, List.forall_mem_append.mpr ⟨hfs, by simpa using hdata⟩⟩

/-- Every operation keeps the invariant. -/
theorem exec_keeps_inv {i : Instr} {s t : State} (h : s.Inv) (ht : exec i s = .next t) : t.Inv := by
  cases hb : i.rxByte with
  | some b => exact execRxb_keeps_inv h (exec_of_rxByte hb s ▸ ht)
  | none =>
    rcases exec_cases_of_no_rxByte hb s with ⟨_, _, he⟩ | ⟨n, b, -, hn, he⟩ |
      ⟨_, _, _, -, -, -, -, he⟩ | ⟨_, _, _, -, -, -, -, he⟩ | ⟨-, -, he⟩ | ⟨-, he⟩ <;> rw [he] at ht
    · exact inv_of_answer h ht
    · exact inv_of_answer (h.writeTxbuf b hn) ht
    · exact nomatch ht
    · exact inv_of_answer ((s.inv_emit _).mpr h) ht
    · exact inv_of_answer h.dequeue ht
    · exact inv_of_answer h.softReset ht

/-- Every step keeps the invariant, whatever is presented. -/
theorem step_keeps_inv {s t : State} (h : s.Inv) (ht : step s = .next t) : t.Inv := by
  rcases hin : s.inputs with _ | ⟨_ | _ | _, rest⟩
  case nil =>
    rw [step, present, hin] at ht
    obtain rfl := Host.Outcome.next.inj ht
    exact h
  case cons.rxByte b =>
    exact exec_keeps_inv (h.with_inputs rest) (step_rxByte hin ▸ ht)
  case cons.hostWord w =>
    exact exec_keeps_inv (h.with_inputs rest) (step_hostWord hin ▸ ht)
  case cons.powerOnReset =>
    rw [step_powerOnReset hin] at ht
    obtain rfl := Host.Outcome.next.inj ht
    exact (h.with_inputs rest).powerOnReset

/-! ## The statements -/

/-- Settles O12: `step_keeps_inv`, by the cases of what is presented and of what an operation can do. -/
theorem everyStepKeepsTheInvariant : Obligations.EveryStepKeepsTheInvariant :=
  fun _ _ => step_keeps_inv

/-- Settles O13: the buffers by the row of R26's table that is held, the queue by the depth's range, the
transmit buffer by its canonical form. -/
theorem invariantBoundsTheBuffers : Obligations.InvariantBoundsTheBuffers := by
  rintro s ⟨hp, ⟨hq, -⟩, ⟨-, hmax⟩, hw⟩
  have hdata : s.data.length ≤ 1024 := (s.parserInv_iff.mp hp).1
  have hchk := hp.chk_length_le
  have hdig := hp.dig_length_le
  exact ⟨hdata, by omega, by omega, hq.trans hmax, Memory.length_of_risingFrom hw,
    fun _ => Memory.read_of_risingFrom hw⟩

/-- Settles O10: every field of the launch state is what `State.resetWith` puts there, and `State.reset` is the
launch state of depth 4 (log entry 1). -/
theorem resetStateIsTheLaunchState : Obligations.ResetStateIsTheLaunchState :=
  ⟨fun _ => ⟨rfl, rfl, rfl, rfl, rfl, rfl, Memory.read_nil, rfl, rfl⟩, 4, by decide, by decide, rfl⟩

/-- Settles O11: the base case of the invariant, for `State.reset` at the depth of log entry 1. -/
theorem invariantHoldsAtReset : Obligations.InvariantHoldsAtReset :=
  ⟨State.resetWith_inv (by decide) (by decide), fun _ => State.resetWith_inv⟩

end Sys2Proof.Machine
end

section
/-! PROOFS. What runs an operation and what it may write (spec 20_memory.md R49, R52, R54): a presented input
runs the operation it stands for, each part of the state has its own writers, and every operation but RXB and
RQP may be repeated. -/

namespace Sys2Proof.Machine

/-! ## The row a word selects, and the word of a received byte -/

/-- The rows of the operation map are disjoint: their matches differ under the masks they share (R58). -/
theorem opCode_eq_of_opSelects {o o' : OpCode} {w : Word} (h : opSelects o w = true)
    (h' : opSelects o' w = true) : o = o' := by
  have rowsDiffer : ∀ p ∈ opCodes, ∀ p' ∈ opCodes,
      opMatch p &&& opMask p' = opMatch p' &&& opMask p → p = p' := by decide
  apply rowsDiffer o (mem_opCodes o) o' (mem_opCodes o')
  rw [← eq_of_beq h, ← eq_of_beq h', BitVec.and_assoc, BitVec.and_assoc, BitVec.and_comm (opMask o)]

/-- A word that meets a row's match and mask selects that row (R58, R59). -/
theorem selectedOp_of_opSelects {o : OpCode} {w : Word} (h : opSelects o w = true) :
    selectedOp w = some o := by
  cases hs : selectedOp w with
  | none => exact absurd h (by simp [not_opSelects_of_selectedOp hs o])
  | some o' => rw [opCode_eq_of_opSelects h (beq_iff_eq.mpr (opSelects_of_selectedOp hs))]

/-- The word of a received byte is a word of RXB (R55). -/
theorem opSelects_rxWord (b : Byte) : opSelects .rxb (rxWord b) = true := by
  rw [opSelects, rxWord, opByte_and _ _ _ (by decide)]
  decide

/-- The word of a received byte decodes to RXB of that byte (R55, R59). -/
theorem decode_rxWord (b : Byte) : decode (rxWord b) = .rxb b := by
  have hb : operandB (rxWord b) = b := operandB_place (opMatch .rxb) 0#11 b rfl
  rw [decode, selectedOp_of_opSelects (opSelects_rxWord b)]
  simp only [hb]

/-! ## Writing and producing twice -/

/-- Of two writes to one address the second stands. -/
@[simp] theorem Memory.write_write_same (m : Memory) (a : Nat) (v w : Byte) :
    (m.write a v).write a w = m.write a w := by
  induction m with
  | nil => simp [Memory.write]
  | cons c rest ih =>
    obtain ⟨k, u⟩ := c
    rcases lt_trichotomy a k with h | rfl | h
    · simp [Memory.write, h]
    · simp [Memory.write]
    · have h1 : ¬ a < k := by omega
      have h2 : a ≠ k := by omega
      simp [Memory.write, h1, h2, ih]

/-- Writing a byte again leaves a state whose transmit buffer holds that write already. -/
theorem State.writeTxbuf_again {t : State} {m : Memory} {i : Nat} {v : Byte} (h : t.txbuf = m.write i v) :
    t.writeTxbuf i v = t := by
  rw [State.writeTxbuf, h, Memory.write_write_same, ← h]

/-- Producing outputs in two parts is producing them at once. -/
theorem State.emit_emit (s : State) (os os' : List Output) : (s.emit os).emit os' = s.emit (os ++ os') := by
  simp [State.emit]

/-- An operation that answers leaves the state it answers from, with the response produced. -/
theorem eq_respond_of_answer {s t : State} {st : Status} {d : BitVec 28} (h : answer s st d = .next t) :
    t = s.respond st d :=
  (Host.Outcome.next.inj h).symm

/-! ## The encoder's operations on the transmit buffer -/

/-- TXW inside the transmit buffer writes its cell (R115). -/
theorem exec_txw_of_lt {n : Index} (h : n.toNat < txbufSize) (b : Byte) (s : State) :
    exec (.txw n b) s = answer (s.writeTxbuf n.toNat b) .ok 0#28 :=
  if_neg (Nat.not_le.mpr h)

/-- What a TXF that answers adds to the outputs is the same in every state with the same transmit buffer
(R116, R117). -/
theorem execTxf_adds_outputs_of_txbuf {n : Index} {ty : Byte} {s t : State} (h : execTxf n ty s = .next t) :
    ∃ os, ∀ s' : State, s'.txbuf = s.txbuf → execTxf n ty s' = .next (s'.emit os) := by
  by_cases hn : maxPayload < n.toNat
  · exact ⟨_, fun s' _ => by rw [execTxf, if_pos hn]; rfl⟩
  · rw [execTxf, if_neg hn] at h
    cases hp : s.txbuf.readRange 0 n.toNat with
    | error i =>
      rw [hp] at h
      exact nomatch h
    | ok p =>
      refine ⟨(encodeFrame ty p).map .txByte ++
        [.response (responseWord .ok (txfData (encodeFrame ty p).length))], fun s' hs => ?_⟩
      rw [execTxf, if_neg hn, hs, hp, ← State.emit_emit]
      rfl

/-! ## The deframer does not read the transmit buffer -/

/-- The case a byte meets does not depend on the transmit buffer (R152). -/
theorem rxRuleOf_with_txbuf (b : Byte) (s : State) (m : Memory) :
    rxRuleOf b { s with txbuf := m } = rxRuleOf b s := rfl

/-- Every case of RXB carries the transmit buffer along: with another one it does the same to the rest. -/
theorem rxRuleEffect_with_txbuf (r : RxRule) (b : Byte) (s : State) (m : Memory) :
    rxRuleEffect r b { s with txbuf := m } =
      { rxRuleEffect r b s with next := { (rxRuleEffect r b s).next with txbuf := m } } := by
  cases r
  case chk3Verified =>
    have hfull : ({ s with txbuf := m } : State).rxqFull = s.rxqFull := rfl
    simp only [rxRuleEffect, rxChk3Verified, hfull]
    split <;> rfl
  all_goals rfl

/-- RXB with another transmit buffer does the same to the rest of the state. -/
theorem execRxb_with_txbuf {b : Byte} {s t : State} (h : execRxb b s = .next t) (m : Memory) :
    execRxb b { s with txbuf := m } = .next { t with txbuf := m } := by
  obtain rfl := Host.Outcome.next.inj h
  rw [execRxb, rxRuleOf_with_txbuf, rxRuleEffect_with_txbuf]
  rfl

/-! ## The statements -/

/-- Settles O52: RXB and its rows by `execRxb_frame`, every other operation by `exec_cases_of_no_rxByte`. -/
theorem eachPartIsWrittenByItsOwnOperations : Obligations.EachPartIsWrittenByItsOwnOperations := by
  intro i s t ht
  cases hb : i.rxByte with
  | some b =>
    obtain ⟨hdepth, hinputs, htxbuf, -⟩ := execRxb_frame (exec_of_rxByte hb s ▸ ht)
    exact ⟨hdepth, hinputs, fun _ => htxbuf, nofun, nofun⟩
  | none =>
    rcases exec_cases_of_no_rxByte hb s with ⟨_, _, he⟩ | ⟨n, b, hi, -, he⟩ |
      ⟨_, _, _, -, -, -, -, he⟩ | ⟨_, _, _, -, -, -, -, he⟩ | ⟨hi, -, he⟩ | ⟨hi, he⟩ <;> rw [he] at ht
    case inr.inr.inl => exact nomatch ht
    all_goals obtain rfl := eq_respond_of_answer ht
    · exact ⟨rfl, rfl, fun _ => rfl, fun _ _ => ⟨rfl, rfl, rfl, rfl, rfl⟩, fun _ _ _ => rfl⟩
    · exact ⟨rfl, rfl, fun h => absurd hi (h n b), fun _ _ => ⟨rfl, rfl, rfl, rfl, rfl⟩, fun _ _ _ => rfl⟩
    · exact ⟨rfl, rfl, fun _ => rfl, fun _ _ => ⟨rfl, rfl, rfl, rfl, rfl⟩, fun _ _ _ => rfl⟩
    · exact ⟨rfl, rfl, fun _ => rfl, fun _ _ => ⟨rfl, rfl, rfl, rfl, rfl⟩, fun _ _ h => absurd hi h⟩
    · exact ⟨rfl, rfl, fun _ => rfl, fun _ h => absurd hi h, fun _ h => absurd hi h⟩

/-- Settles O53, by what the second of the two can do: TXW writes the byte that the first wrote, RST clears
what the first cleared, and the others only produce outputs. -/
theorem idempotentOperationsRepeatWithoutEffect : Obligations.IdempotentOperationsRepeatWithoutEffect := by
  intro i s t u hb hrqp ht hu
  rcases exec_cases_of_no_rxByte hb t with ⟨_, _, he⟩ | ⟨n, b, rfl, hn, he⟩ |
    ⟨_, _, _, -, -, -, -, he⟩ | ⟨_, _, _, -, -, -, -, he⟩ | ⟨hi, -, -⟩ | ⟨rfl, he⟩
  case inr.inr.inr.inr.inl => exact absurd hi hrqp
  all_goals rw [he] at hu
  case inr.inr.inl => exact nomatch hu
  all_goals obtain rfl := eq_respond_of_answer hu
  · rfl
  · have hwritten : t.txbuf = s.txbuf.write n.toNat b := by
      rw [eq_respond_of_answer ((exec_txw_of_lt hn b s).symm.trans ht)]
      rfl
    rw [State.writeTxbuf_again hwritten]
    rfl
  · rfl
  · obtain rfl := eq_respond_of_answer ht
    rfl

/-- Settles O55: no case of RXB reads or writes the transmit buffer, and TXF reads nothing else. -/
theorem encoderAndDeframerShareNoState : Obligations.EncoderAndDeframerShareNoState := by
  refine ⟨fun b s t m h => ?_, fun n ty s t s' h hs => ?_⟩
  · obtain ⟨-, -, htxbuf, -⟩ := execRxb_frame h
    exact ⟨htxbuf, execRxb_with_txbuf h m⟩
  · obtain ⟨os, hos⟩ := execTxf_adds_outputs_of_txbuf h
    exact ⟨os, Host.Outcome.next.inj (h.symm.trans (hos s rfl)), hos s' hs⟩

/-- Settles O7: a host word by `step_hostWord`, a received byte because its word decodes to RXB. The list of
inputs is log entry 2's. -/
theorem aStepRunsThePresentedOperation : Obligations.AStepRunsThePresentedOperation := by
  refine fun s rest => ⟨fun w i hin hi => hi ▸ step_hostWord hin, fun b hin => ?_⟩
  rw [step_rxByte hin, decode_rxWord]

end Sys2Proof.Machine
end

section
/-! PROOFS. The encoding (spec 30_encoding.md R56 to R61): a word that selects a row decodes to the row's
operation with the operands of the word, and encodes back to itself; which words are illegal; and that every
operation answers once. -/

namespace Sys2Proof.Machine

/-! ## The operation of a row -/

/-- The operation of a row of the operation map, with the operands a word gives it (R58, R59). -/
def rowInstr (o : OpCode) (w : Word) : Instr :=
  match o with
  | .nop => .nop
  | .rxb => .rxb (operandB w)
  | .txw => .txw (operandN w) (operandB w)
  | .txf => .txf (operandN w) (operandB w)
  | .rqh => .rqh
  | .rqb => .rqb (operandN w)
  | .rqp => .rqp
  | .stat => .stat
  | .rst => .rst
  | .res8 => .reserved8 (operandX w)
  | .res9 => .reserved9 (operandX w)
  | .resA => .reservedA (operandX w)
  | .resB => .reservedB (operandX w)
  | .resC => .reservedC (operandX w)
  | .resD => .reservedD (operandX w)
  | .resE => .reservedE (operandX w)

/-- A row's match and mask, met by a word. -/
theorem opSelects_iff {o : OpCode} {w : Word} : opSelects o w = true ↔ w &&& opMask o = opMatch o :=
  beq_iff_eq

/-- A word that selects a row decodes to the row's operation (R59). -/
theorem decode_of_opSelects {o : OpCode} {w : Word} (h : opSelects o w = true) :
    decode w = rowInstr o w := by
  rw [decode, selectedOp_of_opSelects h]
  cases o <;> rfl

/-- A word that selects no row decodes to ILLEGAL (R59). -/
theorem decode_of_no_row {w : Word} (h : selectedOp w = none) : decode w = .illegal w := by
  rw [decode, h]

/-- Everything decode can answer. -/
theorem decode_cases (w : Word) :
    (∃ o, opSelects o w = true ∧ decode w = rowInstr o w) ∨
    (selectedOp w = none ∧ decode w = .illegal w) := by
  cases hs : selectedOp w with
  | none => exact .inr ⟨rfl, decode_of_no_row hs⟩
  | some o =>
    have ho : opSelects o w = true := opSelects_iff.mpr (opSelects_of_selectedOp hs)
    exact .inl ⟨o, ho, decode_of_opSelects ho⟩

/-! ## Decode of encode -/

/-- RXB and its rows are spelled by the word of their byte (R55, R61; log entry 4). -/
theorem encode_of_rxByte {i : Instr} {b : Byte} (hb : i.rxByte = some b) : encode i = rxWord b := by
  cases i <;> cases hb <;> rfl

/-- An instruction whose word selects a row, and whose operands that word gives back, is what its word
decodes to. -/
theorem decode_encode_of_row {i : Instr} (o : OpCode) (hsel : encode i &&& opMask o = opMatch o)
    (hi : rowInstr o (encode i) = i) : decode (encode i) = i :=
  (decode_of_opSelects (opSelects_iff.mpr hsel)).trans hi

/-- The word of a well-formed instruction other than RXB and its rows decodes to that instruction. -/
theorem decode_encode_of_no_rxByte {i : Instr} (hwf : i.wf = true) (hb : i.rxByte = none) :
    decode (encode i) = i := by
  cases i <;> cases hb
  case nop | rqh | rqp | stat | rst => rfl
  case txw n b =>
    exact decode_encode_of_row .txw (Laws.EncodesToRow.txw n b rfl)
      (congrArg₂ Instr.txw (operandN_place _ n b rfl) (operandB_place _ n b rfl))
  case txf n t =>
    exact decode_encode_of_row .txf (Laws.EncodesToRow.txf n t rfl)
      (congrArg₂ Instr.txf (operandN_place _ n t rfl) (operandB_place _ n t rfl))
  case rqb n =>
    have hn : operandN (opMatch .rqb ||| placeN n) = n := by
      simpa using operandN_place (opMatch .rqb) n 0#8 rfl
    exact decode_encode_of_row .rqb (opIndex_and _ _ n (by decide)) (congrArg Instr.rqb hn)
  case reserved8 x =>
    exact decode_encode_of_row .res8 (opFree_and _ x) (congrArg Instr.reserved8 (operandX_place _ x rfl))
  case reserved9 x =>
    exact decode_encode_of_row .res9 (opFree_and _ x) (congrArg Instr.reserved9 (operandX_place _ x rfl))
  case reservedA x =>
    exact decode_encode_of_row .resA (opFree_and _ x) (congrArg Instr.reservedA (operandX_place _ x rfl))
  case reservedB x =>
    exact decode_encode_of_row .resB (opFree_and _ x) (congrArg Instr.reservedB (operandX_place _ x rfl))
  case reservedC x =>
    exact decode_encode_of_row .resC (opFree_and _ x) (congrArg Instr.reservedC (operandX_place _ x rfl))
  case reservedD x =>
    exact decode_encode_of_row .resD (opFree_and _ x) (congrArg Instr.reservedD (operandX_place _ x rfl))
  case reservedE x =>
    exact decode_encode_of_row .resE (opFree_and _ x) (congrArg Instr.reservedE (operandX_place _ x rfl))
  case illegal w => exact decode_of_no_row (Option.isNone_iff_eq_none.mp hwf)

/-! ## Encode of decode -/

/-- N put back in its place is the word cut to bits [26:16]. -/
theorem placeN_operandN (w : Word) : placeN (operandN w) = w &&& 0x07FF0000#32 := by
  apply BitVec.eq_of_getLsbD_eq
  intro i hi
  interval_cases i <;> simp [placeN, operandN]

/-- B put back in its place is the word cut to bits [7:0]. -/
theorem placeB_operandB (w : Word) : placeB (operandB w) = w &&& 0x000000FF#32 := by
  apply BitVec.eq_of_getLsbD_eq
  intro i hi
  interval_cases i <;> simp [placeB, operandB]

/-- The free bits of a reserved op code put back in their place. -/
theorem placeX_operandX (w : Word) : placeX (operandX w) = w &&& 0x0FFFFFFF#32 := by
  apply BitVec.eq_of_getLsbD_eq
  intro i hi
  interval_cases i <;> simp [placeX, operandX]

/-- The operands of a row's operation are the bits its mask leaves free: encoding it gives the row's match
with those bits of the word. -/
theorem encode_rowInstr (o : OpCode) (w : Word) :
    encode (rowInstr o w) = opMatch o ||| (w &&& ~~~opMask o) := by
  cases o
  case nop | rqh | rqp | stat | rst => simp [rowInstr, encode, opMask]
  case rxb => rw [rowInstr, encode, placeB_operandB]; rfl
  case rqb => rw [rowInstr, encode, placeN_operandN]; rfl
  case txw | txf =>
    rw [rowInstr, encode, placeN_operandN, placeB_operandB, BitVec.or_assoc, ← BitVec.and_or_distrib_left]
    rfl
  case res8 | res9 | resA | resB | resC | resD | resE => rw [rowInstr, encode, placeX_operandX]; rfl

/-- A word that selects a row is the word of the row's operation: match and mask fix the other bits. -/
theorem encode_rowInstr_of_opSelects {o : OpCode} {w : Word} (h : opSelects o w = true) :
    encode (rowInstr o w) = w := by
  rw [encode_rowInstr, ← opSelects_iff.mp h, ← BitVec.and_or_distrib_left, BitVec.or_not_self,
    BitVec.and_allOnes]

/-- The operation of a row is well-formed: neither ILLEGAL nor a row of RXB. -/
theorem rowInstr_wf (o : OpCode) (w : Word) : (rowInstr o w).wf = true := by
  cases o <;> rfl

/-! ## Which words are illegal -/

/-- The reserved op codes 0x8 to 0xE (R60). -/
def OpCode.isReserved : OpCode → Bool
  | .res8 | .res9 | .resA | .resB | .resC | .resD | .resE => true
  | .nop | .rxb | .txw | .txf | .rqh | .rqb | .rqp | .stat | .rst => false

/-- The row's operation has the operand N (R61). -/
def OpCode.takesN : OpCode → Bool
  | .txw | .txf | .rqb => true
  | _ => false

/-- The row's operation has the operand B (R61). -/
def OpCode.takesB : OpCode → Bool
  | .rxb | .txw | .txf => true
  | _ => false

/-- OP of the words of a row: the top four bits of its match (R56, R58). -/
def OpCode.op (o : OpCode) : BitVec 4 := (opMatch o).extractLsb' 28 4

/-- A row's operation is illegal exactly for a reserved op code (R60). -/
theorem isIllegal_rowInstr (o : OpCode) (w : Word) : (rowInstr o w).isIllegal = o.isReserved := by
  cases o <;> rfl

/-- The illegal words are those that select none of the nine operations (R59, R60). -/
theorem isIllegal_decode_iff (w : Word) :
    (decode w).isIllegal = true ↔ ∀ o : OpCode, o.isReserved = false → opSelects o w = false := by
  rcases decode_cases w with ⟨o, ho, hd⟩ | ⟨hs, hd⟩ <;> rw [hd]
  · rw [isIllegal_rowInstr]
    refine ⟨fun hres o' hop => ?_, fun hnone => ?_⟩
    · by_contra hsel
      rw [opCode_eq_of_opSelects ho (Bool.eq_true_of_not_eq_false hsel), hop] at hres
      exact Bool.false_ne_true hres
    · by_contra hop
      exact absurd (hnone o (Bool.eq_false_of_not_eq_true hop)) (by simp [ho])
  · exact iff_of_true rfl fun o _ => not_opSelects_of_selectedOp hs o

/-- Words that agree on a field agree on each bit of it. -/
theorem getLsbD_eq_of_field_eq {v w : Word} {lo len i : Nat} (h : v.extractLsb' lo len = w.extractLsb' lo len)
    (hlo : lo ≤ i) (hhi : i < lo + len) : v.getLsbD i = w.getLsbD i := by
  have hbit := congrArg (·.getLsbD (i - lo)) h
  have hin : i - lo < len := by omega
  simpa [BitVec.getLsbD_extractLsb', hin, Nat.add_sub_cancel' hlo] using hbit

/-- Two words are equal when their fields are: OP, bit 27, bits [15:8], N and B (R56). -/
theorem word_eq_iff_fields (v w : Word) :
    v = w ↔ v.extractLsb' 28 4 = w.extractLsb' 28 4 ∧ v.getLsbD 27 = w.getLsbD 27 ∧
      v.extractLsb' 8 8 = w.extractLsb' 8 8 ∧ v.extractLsb' 16 11 = w.extractLsb' 16 11 ∧
      v.extractLsb' 0 8 = w.extractLsb' 0 8 := by
  refine ⟨fun h => by simp [h], fun ⟨hop, hbit, hmid, hn, hb⟩ => BitVec.eq_of_getLsbD_eq fun i hi => ?_⟩
  have hwhere : 28 ≤ i ∨ i = 27 ∨ (16 ≤ i ∧ i < 27) ∨ (8 ≤ i ∧ i < 16) ∨ i < 8 := by omega
  rcases hwhere with h | rfl | ⟨hlo, hhi⟩ | ⟨hlo, hhi⟩ | h
  · exact getLsbD_eq_of_field_eq hop h hi
  · exact hbit
  · exact getLsbD_eq_of_field_eq hn hlo hhi
  · exact getLsbD_eq_of_field_eq hmid hlo hhi
  · exact getLsbD_eq_of_field_eq hb (Nat.zero_le i) (by omega)

/-- A word selects one of the nine operations exactly when OP is the operation's and every bit that must be 0
is 0: bit 27, bits [15:8], and the operands the operation does not have (R58, R59; log entry 14). -/
theorem opSelects_iff_fields {o : OpCode} (ho : o.isReserved = false) (w : Word) :
    opSelects o w = true ↔ w.extractLsb' 28 4 = o.op ∧ w.getLsbD 27 = false ∧ w.extractLsb' 8 8 = 0#8 ∧
      (o.takesN = false → w.extractLsb' 16 11 = 0#11) ∧ (o.takesB = false → w.extractLsb' 0 8 = 0#8) := by
  have op_whole (x : BitVec 4) : x &&& 15#4 = x := BitVec.and_allOnes
  have index_whole (x : Index) : x &&& 2047#11 = x := BitVec.and_allOnes
  have byte_whole (x : Byte) : x &&& 255#8 = x := BitVec.and_allOnes
  rw [opSelects_iff, word_eq_iff_fields]
  simp only [BitVec.extractLsb'_and, BitVec.getLsbD_and]
  cases o <;> cases ho <;>
    simp [opMask, opMatch, OpCode.op, OpCode.takesN, OpCode.takesB, op_whole, index_whole, byte_whole]

/-- Which values of OP the nine operations have, and which of them lack N or B (R58, R61). -/
theorem op_of_not_reserved {o : OpCode} (ho : o.isReserved = false) :
    ¬(8 ≤ o.op.toNat ∧ o.op.toNat ≤ 14) ∧
    (o.takesN = false ↔ o.op.toNat ∈ [0, 1, 4, 6, 7, 15]) ∧
    (o.takesB = false ↔ o.op.toNat ∈ [0, 4, 5, 6, 7, 15]) := by
  cases o <;> cases ho <;> decide

/-- Every value of OP outside 8 to 14 belongs to one of the nine operations (R58). -/
theorem exists_operation_of_op {c : BitVec 4} (hc : ¬(8 ≤ c.toNat ∧ c.toNat ≤ 14)) :
    ∃ o : OpCode, o.isReserved = false ∧ o.op = c := by
  have table : ∀ c : BitVec 4, ¬(8 ≤ c.toNat ∧ c.toNat ≤ 14) →
      ∃ o ∈ opCodes, o.isReserved = false ∧ o.op = c := by decide
  obtain ⟨o, -, ho⟩ := table c hc
  exact ⟨o, ho⟩

/-- The masks as R58 prints them: RQB's leaves bits [15:8] free (log entry 14). -/
def printedMask : OpCode → Word
  | .rqb => 0xF80000FF#32
  | o => opMask o

/-- A word that selects a row meets the row's match under the printed mask, which is part of the model's. -/
theorem and_printedMask_of_opSelects {o : OpCode} {w : Word} (h : opSelects o w = true) :
    w &&& printedMask o = opMatch o := by
  have hpart : opMask o &&& printedMask o = printedMask o := by cases o <;> rfl
  have hmatch : opMatch o &&& printedMask o = opMatch o := by cases o <;> rfl
  rw [← hpart, ← BitVec.and_assoc, opSelects_iff.mp h, hmatch]

/-! ## What an illegal operation answers -/

/-- The constructors of the illegal words answer ILLEGAL and write no state (R60). -/
theorem exec_of_isIllegal {i : Instr} (hi : i.isIllegal = true) (s : State) :
    exec i s = .next { s with outputs := s.outputs ++ [.response 0x30000000#32] } := by
  cases i <;> cases hi <;> rfl

/-! ## One response for each operation -/

/-- The state `t` is the state `s` after one operation's response (R57, R187, R193): the response comes last and
alone, with a status of 0 to 3, and a status other than OK changes nothing else. -/
def AnswersOnce (s t : State) : Prop :=
  ∃ os w, t.outputs = s.outputs ++ os ++ [.response w] ∧ (∀ v, Output.response v ∉ os) ∧
    (w.extractLsb' 28 4).toNat ≤ 3 ∧
    (w.extractLsb' 28 4 ≠ 0#4 → t = { s with outputs := s.outputs ++ [.response w] })

/-- The status reads back from a response word (R57). -/
theorem status_responseWord (st : Status) (d : BitVec 28) :
    (responseWord st d).extractLsb' 28 4 = statusCode st := by
  apply BitVec.eq_of_getLsbD_eq
  intro i hi
  interval_cases i <;> simp [responseWord]

/-- The status codes are 0 to 3 (R57). -/
theorem statusCode_le (st : Status) : (statusCode st).toNat ≤ 3 := by
  cases st <;> decide

/-- An operation that does nothing but answer answers once. -/
theorem answersOnce_respond (s : State) (st : Status) (d : BitVec 28) : AnswersOnce s (s.respond st d) :=
  ⟨[], responseWord st d, by simp, by simp, (status_responseWord st d).symm ▸ statusCode_le st, fun _ => rfl⟩

/-- An operation that answers OK after outputs without a response answers once, whatever else it does. -/
theorem answersOnce_respond_ok {s u : State} {os : List Output} (hout : u.outputs = s.outputs ++ os)
    (hos : ∀ v, Output.response v ∉ os) (d : BitVec 28) : AnswersOnce s (u.respond .ok d) :=
  ⟨os, responseWord .ok d, by rw [State.respond_outputs, hout], hos,
    (status_responseWord .ok d).symm ▸ statusCode_le .ok, fun h => absurd (status_responseWord .ok d) h⟩

/-- An operation that answers OK and produces nothing else answers once. -/
theorem answersOnce_respond_ok_alone {s u : State} (hout : u.outputs = s.outputs) (d : BitVec 28) :
    AnswersOnce s (u.respond .ok d) :=
  answersOnce_respond_ok (by rw [hout, List.append_nil]) (fun _ => List.not_mem_nil) d

/-- The end of RXB is an answer, given after the frame and the diagnostic (R130, R193). -/
theorem finishRxb_eq_answer (b : Byte) (e : RxEffect) :
    finishRxb b e = answer (e.next.emit (e.frame.toList.map .frame ++ e.diag.toList.map (.diag · b))) .ok
      (rxbData e.diag e.enq e.frame.isSome) := by
  rw [answer, State.respond, State.emit_emit]
  rfl

/-- No case of RXB produces outputs of its own: they are all produced at the end of RXB (R130). -/
theorem rxRuleEffect_outputs (r : RxRule) (b : Byte) (s : State) :
    (rxRuleEffect r b s).next.outputs = s.outputs := by
  cases r
  case chk3Verified =>
    rw [rxRuleEffect, rxChk3Verified]
    split <;> rfl
  all_goals rfl

/-- RXB answers once: neither its frame nor its diagnostic is a response, and its response is OK (R130). -/
theorem execRxb_answersOnce {b : Byte} {s t : State} (h : execRxb b s = .next t) : AnswersOnce s t := by
  rw [execRxb, finishRxb_eq_answer] at h
  obtain rfl := eq_respond_of_answer h
  exact answersOnce_respond_ok (by rw [State.emit_outputs, rxRuleEffect_outputs]) (by simp) _

/-- Every operation that answers a next state answers once. -/
theorem exec_answersOnce {i : Instr} {s t : State} (ht : exec i s = .next t) : AnswersOnce s t := by
  cases hb : i.rxByte with
  | some b => exact execRxb_answersOnce (exec_of_rxByte hb s ▸ ht)
  | none =>
    rcases exec_cases_of_no_rxByte hb s with ⟨st, d, he⟩ | ⟨n, b, -, -, he⟩ |
      ⟨_, _, _, -, -, -, -, he⟩ | ⟨_, ty, p, -, -, -, -, he⟩ | ⟨-, -, he⟩ | ⟨-, he⟩ <;> rw [he] at ht
    case inr.inr.inl => exact nomatch ht
    all_goals obtain rfl := eq_respond_of_answer ht
    · exact answersOnce_respond s st d
    · exact answersOnce_respond_ok_alone (s.writeTxbuf_outputs _ _) _
    · exact answersOnce_respond_ok (s.emit_outputs _) (by simp) _
    · exact answersOnce_respond_ok_alone s.dequeue_outputs _
    · exact answersOnce_respond_ok_alone s.softReset_outputs _

/-! ## The statements -/

/-- Settles O1: RXB and its rows share the word of their byte, and every other instruction's word selects the
instruction's row and gives its operands back (log entries 4 and 5). -/
theorem decodeOfEncodeIsTheOperation : Obligations.DecodeOfEncodeIsTheOperation := by
  intro i hwf
  rw [Instr.operation]
  cases hb : i.rxByte with
  | some b => exact (congrArg decode (encode_of_rxByte hb)).trans (decode_rxWord b)
  | none => exact decode_encode_of_no_rxByte hwf hb

/-- Settles O2: the word is its row's match with the bits its mask leaves free, or ILLEGAL's own word (log
entries 5 and 14). -/
theorem encodeOfDecodeIsTheWord : Obligations.EncodeOfDecodeIsTheWord := by
  intro w
  rcases decode_cases w with ⟨o, ho, hd⟩ | ⟨hs, hd⟩ <;> rw [hd]
  · exact ⟨encode_rowInstr_of_opSelects ho, rowInstr_wf o w⟩
  · exact ⟨rfl, Option.isNone_iff_eq_none.mpr hs⟩

/-- Settles O3: a word is illegal unless it selects one of the nine operations, which `opSelects_iff_fields`
says field by field (log entry 14). -/
theorem illegalWordsAreThoseWithAForbiddenBit : Obligations.IllegalWordsAreThoseWithAForbiddenBit := by
  intro w
  rw [isIllegal_decode_iff]
  constructor
  · intro hall
    by_contra hclear
    simp only [not_or, not_and', not_not, Bool.not_eq_true] at hclear
    obtain ⟨hop, hbit, hmid, hn, hb⟩ := hclear
    obtain ⟨o, ho, hcode⟩ := exists_operation_of_op (c := w.extractLsb' 28 4) (by omega)
    obtain ⟨-, hN, hB⟩ := op_of_not_reserved ho
    rw [← hcode] at hn hb
    have hsel : opSelects o w = true :=
      (opSelects_iff_fields ho w).mpr ⟨hcode.symm, hbit, hmid, hn ∘ hN.mp, hb ∘ hB.mp⟩
    exact Bool.false_ne_true ((hall o ho).symm.trans hsel)
  · intro hforbidden o ho
    by_contra hsel
    obtain ⟨hcode, hbit, hmid, hn, hb⟩ := (opSelects_iff_fields ho w).mp (Bool.eq_true_of_not_eq_false hsel)
    obtain ⟨hop, hN, hB⟩ := op_of_not_reserved ho
    rw [hcode] at hforbidden
    rcases hforbidden with h | h | h | ⟨h, hmem⟩ | ⟨h, hmem⟩
    · exact hop h
    · exact Bool.false_ne_true (hbit.symm.trans h)
    · exact h hmid
    · exact h (hn (hN.mpr hmem))
    · exact h (hb (hB.mpr hmem))

/-- Settles O4: `opCode_eq_of_opSelects`. -/
theorem aWordSelectsAtMostOneRow : Obligations.AWordSelectsAtMostOneRow :=
  fun _ _ _ => opCode_eq_of_opSelects

/-- Settles O51: `exec_answersOnce`, by RXB and the cases of the operations that take no received byte. -/
theorem everyOperationAnswersOnce : Obligations.EveryOperationAnswersOnce :=
  fun _ _ _ => exec_answersOnce

/-- Settles O5: each word selects its row, and its operands are computed. -/
theorem wordsOfTheVectorsDecode : Obligations.WordsOfTheVectorsDecode := by
  unfold Obligations.WordsOfTheVectorsDecode
  decide

/-- Settles O6: a word that meets none of the nine rows, as R58 prints them, selects none of the nine
operations of the model, whose masks have all the bits of the printed ones (log entry 14). -/
theorem illegalOperationsChangeNothing : Obligations.IllegalOperationsChangeNothing := by
  refine fun s x w => ⟨fun i hi => ?_, fun hrows => ?_⟩
  · have hall : ∀ i ∈ [Instr.reserved8 x, .reserved9 x, .reservedA x, .reservedB x, .reservedC x,
        .reservedD x, .reservedE x, .illegal w], i.isIllegal = true := by simp [Instr.isIllegal]
    exact exec_of_isIllegal (hall i hi) s
  · refine exec_of_isIllegal ((isIllegal_decode_iff w).mpr fun o ho => ?_) s
    by_contra hsel
    refine hrows (opMatch o, printedMask o) ?_
      (and_printedMask_of_opSelects (Bool.eq_true_of_not_eq_false hsel))
    cases o <;> cases ho <;> decide

end Sys2Proof.Machine
end

section
/-! PROOFS. The checksum (spec 40_checksum.md R90 to R94, R98): the word sum by index and under the change of one
byte, what two folds leave of a sum, and the hexadecimal digits of a checksum. -/

namespace Sys2Proof.Machine

/-! ## The word sum -/

/-- The word sum by index, as the loop of R90 adds it, a missing byte taken as 0x00 (R91). -/
theorem wordSum_eq_sum_range (bs : List Byte) :
    wordSum bs = ((List.range ((bs.length + 1) / 2)).map fun k =>
      (bs.getD (2 * k) 0#8).toNat * 256 + (bs.getD (2 * k + 1) 0#8).toNat).sum := by
  induction bs using wordSum.induct with
  | case1 => rfl
  | case2 hi => simp [wordSum]
  | case3 hi lo rest ih =>
    have hwords : ((hi :: lo :: rest).length + 1) / 2 = (rest.length + 1) / 2 + 1 := by
      simp only [List.length_cons]
      omega
    rw [hwords, List.range_succ_eq_map, List.map_cons, List.sum_cons, List.map_map, wordSum, ih]
    rfl

/-- The sum of a frame's checksum input needs 26 bits (R92). -/
theorem wordSum_lt {bs : List Byte} (h : bs.length ≤ 1028) : wordSum bs < 2 ^ 26 := by
  have hsum := wordSum_le bs
  omega

/-- So it is a 32-bit sum, as the facts about two folds want it (R92). -/
theorem wordSum_lt_two_pow_32 {bs : List Byte} (h : bs.length ≤ 1028) : wordSum bs < 2 ^ 32 :=
  (wordSum_lt h).trans (by decide)

/-- What the byte at an index counts in the word sum: a high byte at an even index, a low byte at an odd one
(R43). -/
def byteWeight (i : Nat) : Nat := if i % 2 = 0 then 2 ^ 8 else 1

@[simp] theorem byteWeight_zero : byteWeight 0 = 2 ^ 8 := rfl

@[simp] theorem byteWeight_one : byteWeight 1 = 1 := rfl

theorem byteWeight_cases (i : Nat) : byteWeight i = 2 ^ 8 ∨ byteWeight i = 1 := ite_eq_or_eq _ _ _

theorem byteWeight_add_two (i : Nat) : byteWeight (i + 2) = byteWeight i := by
  rw [byteWeight, byteWeight, Nat.add_mod_right]

/-- Replacing one byte changes the word sum by the byte's weight times the change of the byte. -/
theorem wordSum_set {bs : List Byte} {i : Nat} {b : Byte} (hb : bs[i]? = some b) (v : Byte) :
    wordSum (bs.set i v) + byteWeight i * b.toNat = wordSum bs + byteWeight i * v.toNat := by
  induction bs using wordSum.induct generalizing i with
  | case1 => simp at hb
  | case2 hi =>
    obtain ⟨rfl, rfl⟩ : i = 0 ∧ hi = b := by simpa [List.getElem?_singleton] using hb
    simp only [List.set_cons_zero, wordSum, byteWeight_zero]
    omega
  | case3 hi lo rest ih =>
    match i with
    | 0 =>
      obtain rfl : hi = b := by simpa using hb
      simp only [List.set_cons_zero, wordSum, byteWeight_zero]
      omega
    | 1 =>
      obtain rfl : lo = b := by simpa using hb
      simp only [List.set_cons_succ, List.set_cons_zero, wordSum, byteWeight_one]
      omega
    | j + 2 =>
      have hrest := ih (i := j) (by simpa using hb)
      simp only [List.set_cons_succ, wordSum, byteWeight_add_two]
      omega

/-! ## One inverted bit -/

/-- Setting a clear bit adds its power of two. -/
theorem toNat_xor_twoPow_of_clear {w k : Nat} {b : BitVec w} (hk : k < w) (hb : b.getLsbD k = false) :
    (b ^^^ BitVec.twoPow w k).toNat = b.toNat + 2 ^ k := by
  have hdisj : b &&& BitVec.twoPow w k = 0#w := by simp [BitVec.and_twoPow, hb]
  have hadd : b ^^^ BitVec.twoPow w k = b + BitVec.twoPow w k := by
    rw [BitVec.add_eq_or_of_and_eq_zero _ _ hdisj]
    ext j hj
    by_cases hjk : j = k
    · subst hjk
      simp [← BitVec.getLsbD_eq_getElem, hb]
    · simp [BitVec.getElem_twoPow, hjk]
  rw [hadd, BitVec.toNat_add_of_and_eq_zero hdisj, BitVec.toNat_twoPow_of_lt hk]

/-- Inverting a bit adds or takes away its power of two. -/
theorem toNat_xor_twoPow {w k : Nat} (b : BitVec w) (hk : k < w) :
    (b ^^^ BitVec.twoPow w k).toNat = b.toNat + 2 ^ k ∨ b.toNat = (b ^^^ BitVec.twoPow w k).toNat + 2 ^ k := by
  cases hb : b.getLsbD k with
  | false => exact .inl (toNat_xor_twoPow_of_clear hk hb)
  | true =>
    refine .inr ?_
    have hclear : (b ^^^ BitVec.twoPow w k).getLsbD k = false := by simp [hb, hk]
    rw [← toNat_xor_twoPow_of_clear hk hclear, BitVec.xor_assoc, BitVec.xor_self, BitVec.xor_zero]

/-- Inverting one bit moves the word sum, up or down, by a power of two of at most 2^15, so by less than 0xFFFF
(R98). -/
theorem wordSum_set_xor_twoPow {bs : List Byte} {i k : Nat} {b : Byte} (hb : bs[i]? = some b) (hk : k < 8) :
    ∃ d, 0 < d ∧ d < 0xFFFF ∧
      (wordSum (bs.set i (b ^^^ BitVec.twoPow 8 k)) = wordSum bs + d ∨
        wordSum bs = wordSum (bs.set i (b ^^^ BitVec.twoPow 8 k)) + d) := by
  have hset := wordSum_set hb (b ^^^ BitVec.twoPow 8 k)
  have hpos : 0 < 2 ^ k := Nat.two_pow_pos k
  have hle : 2 ^ k ≤ 2 ^ 7 := Nat.pow_le_pow_right (by decide) (by omega)
  refine ⟨byteWeight i * 2 ^ k, ?_⟩
  rcases toNat_xor_twoPow b hk with hv | hv <;> rw [hv, Nat.mul_add] at hset <;>
    rcases byteWeight_cases i with hw | hw <;> rw [hw] at hset ⊢ <;> omega

/-! ## The two folds -/

/-- One fold of a 32-bit sum leaves at most one carry (R92). -/
theorem foldCarry_le {n : Nat} (h : n < 2 ^ 32) : foldCarry n ≤ 0x1FFFE := by
  rw [foldCarry]
  omega

/-- Two folds leave 0 of 0 and of any other 32-bit sum its residue modulo 0xFFFF in 1..0xFFFF (R92). -/
theorem foldCarry_foldCarry {n : Nat} (h : n < 2 ^ 32) :
    foldCarry (foldCarry n) = if n = 0 then 0 else (n - 1) % 0xFFFF + 1 := by
  simp only [foldCarry]
  split <;> omega

/-- After two folds no carry is left (R92). -/
theorem foldCarry_foldCarry_le {n : Nat} (h : n < 2 ^ 32) : foldCarry (foldCarry n) ≤ 0xFFFF := by
  rw [foldCarry_foldCarry h]
  split <;> omega

/-- Only the sum 0 folds to 0. -/
theorem foldCarry_foldCarry_eq_zero_iff {n : Nat} (h : n < 2 ^ 32) : foldCarry (foldCarry n) = 0 ↔ n = 0 := by
  rw [foldCarry_foldCarry h]
  split <;> omega

/-- Two sums less than 0xFFFF apart fold to different values (R98). -/
theorem foldCarry_foldCarry_add_ne {n d : Nat} (hpos : 0 < d) (hd : d < 0xFFFF) (h : n + d < 2 ^ 32) :
    foldCarry (foldCarry (n + d)) ≠ foldCarry (foldCarry n) := by
  rw [foldCarry_foldCarry h, foldCarry_foldCarry (n := n) (by omega)]
  split <;> split <;> omega

/-! ## The checksum -/

/-- The checksum is what the folded sum, cut to 16 bits, leaves up to 0xFFFF (R90). -/
theorem checksum_eq_ofNat (bs : List Byte) :
    checksum bs = BitVec.ofNat 16 (65535 - foldCarry (foldCarry (wordSum bs)) % 65536) := by
  apply BitVec.eq_of_toNat_eq
  rw [checksum, BitVec.toNat_not, BitVec.toNat_ofNat, BitVec.toNat_ofNat]
  omega

/-- For a frame's length the cut loses nothing (R92). -/
theorem checksum_toNat {bs : List Byte} (h : bs.length ≤ 1028) :
    (checksum bs).toNat = 65535 - foldCarry (foldCarry (wordSum bs)) := by
  have hfold := foldCarry_foldCarry_le (wordSum_lt_two_pow_32 h)
  rw [checksum_eq_ofNat, BitVec.toNat_ofNat]
  omega

/-- Equal checksums are equal folded sums. -/
theorem foldCarry_foldCarry_eq_of_checksum_eq {bs cs : List Byte} (hb : bs.length ≤ 1028) (hc : cs.length ≤ 1028)
    (h : checksum bs = checksum cs) : foldCarry (foldCarry (wordSum bs)) = foldCarry (foldCarry (wordSum cs)) := by
  have hnat := congrArg BitVec.toNat h
  rw [checksum_toNat hb, checksum_toNat hc] at hnat
  have hbfold := foldCarry_foldCarry_le (wordSum_lt_two_pow_32 hb)
  have hcfold := foldCarry_foldCarry_le (wordSum_lt_two_pow_32 hc)
  omega

/-- A frame's checksum input has at most 1028 bytes (R24). -/
theorem checksumInput_length_le (t : Byte) {p : List Byte} (h : p.length ≤ 1024) :
    (checksumInput t p).length ≤ 1028 := by
  rw [checksumInput_length]
  split <;> omega

/-- The first word of a frame's checksum input has SOF as its high byte (R94). -/
theorem wordSum_checksumInput_pos (t : Byte) (p : List Byte) : 0 < wordSum (checksumInput t p) := by
  rw [checksumInput, List.append_assoc, List.cons_append, List.cons_append, List.nil_append, wordSum]
  have hsof : sofByte.toNat = 0x3E := rfl
  omega

/-! ## The digits -/

/-- A digit of the nibble at bit `s` of a checksum is the digit of the checksum's number shifted and cut (R93). -/
theorem hexDigit_extractLsb' (c : BitVec 16) (s : Nat) :
    hexDigit (c.extractLsb' s 4) =
      if c.toNat / 2 ^ s % 16 ≤ 9 then BitVec.ofNat 8 (0x30 + c.toNat / 2 ^ s % 16)
      else BitVec.ofNat 8 (0x61 + (c.toNat / 2 ^ s % 16 - 10)) := by
  rw [hexDigit, BitVec.extractLsb'_toNat, Nat.shiftRight_eq_div_pow]

/-! ## The statements -/

/-- Settles O18: `checksum_eq_ofNat`, with the word sum by index. -/
theorem checksumIsTheFoldedWordSum : Obligations.ChecksumIsTheFoldedWordSum := by
  intro bs
  rw [← wordSum_eq_sum_range]
  exact checksum_eq_ofNat bs

/-- Settles O19: the bound of the word sum, and the bounds and the value of the folds. -/
theorem twoFoldsAreExact : Obligations.TwoFoldsAreExact :=
  ⟨fun _ => wordSum_lt, fun _ h => ⟨foldCarry_le h, foldCarry_foldCarry_le h, foldCarry_foldCarry h⟩⟩

/-- Settles O20: the two sums are less than 0xFFFF apart, so their folds differ, in whichever direction the bit
moved the sum. -/
theorem oneInvertedBitChangesTheChecksum : Obligations.OneInvertedBitChangesTheChecksum := by
  intro bs i k b hlen hb hk hsame
  rw [← BitVec.twoPow_eq] at hsame
  have hlen' : (bs.set i (b ^^^ BitVec.twoPow 8 k)).length ≤ 1028 := by rwa [List.length_set]
  have hfold := foldCarry_foldCarry_eq_of_checksum_eq hlen' hlen hsame
  have hlt := wordSum_lt_two_pow_32 hlen
  have hlt' := wordSum_lt_two_pow_32 hlen'
  obtain ⟨d, hpos, hd, hup | hdown⟩ := wordSum_set_xor_twoPow hb hk
  · rw [hup] at hfold hlt'
    exact foldCarry_foldCarry_add_ne hpos hd hlt' hfold
  · rw [hdown] at hfold hlt
    exact foldCarry_foldCarry_add_ne hpos hd hlt hfold.symm

/-- Settles O22: 0xFFFF is the checksum of the empty list, whose folded sum is 0; only the sum 0 folds to 0, and
a frame's sum counts its SOF. -/
theorem noFrameHasChecksumFFFF : Obligations.NoFrameHasChecksumFFFF := by
  intro t p hp hchk
  have hlen := checksumInput_length_le t hp
  have hempty : checksum [] = 0xFFFF#16 := rfl
  have hfold := foldCarry_foldCarry_eq_of_checksum_eq hlen (Nat.zero_le _) (hchk.trans hempty.symm)
  have hzero := (foldCarry_foldCarry_eq_zero_iff (wordSum_lt_two_pow_32 hlen)).mp hfold
  exact (wordSum_checksumInput_pos t p).ne' hzero

/-- Settles O23: each nibble of `hex4` by `hexDigit_extractLsb'`; the highest needs no cut. -/
theorem hexDigitsAreLowercaseMostSignificantFirst : Obligations.HexDigitsAreLowercaseMostSignificantFirst := by
  intro c
  have htop : c.toNat / 2 ^ 12 % 16 = c.toNat / 4096 := by omega
  simp only [hex4, hexDigit_extractLsb', htop, List.map_cons, List.map_nil]
  norm_num

end Sys2Proof.Machine
end

section
/-! PROOFS. The encoder (spec 41_encoder.md R110 to R118): the bytes, the length and the alphabet of an encoded frame,
and TXW and TXF. -/

namespace Sys2Proof.Machine

/-! ## The bytes of a frame -/

/-- The bytes of a frame before its digits: SOF, the type, the escaped payload and the EOF padding
(R110 to R112). -/
def frameBody (t : Byte) (p : List Byte) : List Byte :=
  [sofByte, t] ++ p.flatMap escapeByte ++ eofPadding p.length

theorem encodeFrame_eq_frameBody_append (t : Byte) (p : List Byte) :
    encodeFrame t p = frameBody t p ++ hex4 (frameChk t p) := rfl

/-- The padding with the even length first, as R112 says it. -/
theorem eofPadding_eq_ite_even (n : Nat) :
    eofPadding n = if n % 2 = 0 then [0x3C#8, 0x3C#8] else [0x3C#8] := by
  rw [eofPadding]
  rcases Nat.mod_two_eq_zero_or_one n with h | h <;> rw [h] <;> rfl

/-- EscapeByte as R95's table lists it. -/
theorem escapeByte_eq_ite (b : Byte) :
    escapeByte b =
      if b = 0x3E#8 then [0x5C#8, 0x3E#8] else if b = 0x3C#8 then [0x5C#8, 0x3C#8]
      else if b = 0x5C#8 then [0x5C#8, 0x5C#8] else if b = 0x00#8 then [0x5C#8, 0x30#8]
      else if b = 0xFF#8 then [0x5C#8, 0x46#8] else [b] := by
  simp only [escapeByte, beq_iff_eq]
  rfl

/-- The five payload values that travel as two bytes (R111). -/
def escapedBytes : List Byte := [0x3E#8, 0x3C#8, 0x5C#8, 0x00#8, 0xFF#8]

/-- EscapeByte gives two bytes for those five and one for any other (R111). -/
theorem escapeByte_length_eq_ite (b : Byte) :
    (escapeByte b).length = if b ∈ escapedBytes then 2 else 1 := by
  rw [escapeByte_eq_ite, escapedBytes]
  repeat' split
  all_goals simp_all

/-- The escaped payload is as long as the payload and its escaped bytes, which count twice (R114). -/
theorem flatMap_escapeByte_length (p : List Byte) :
    (p.flatMap escapeByte).length = p.length + p.countP (· ∈ escapedBytes) := by
  induction p with
  | nil => rfl
  | cons b p ih =>
    rw [List.flatMap_cons, List.length_append, ih, escapeByte_length_eq_ite, List.length_cons, List.countP_cons]
    simp only [decide_eq_true_eq]
    split <;> omega

/-- The length of a frame (R114). -/
theorem encodeFrame_length (t : Byte) (p : List Byte) :
    (encodeFrame t p).length = 2 + p.length + p.countP (· ∈ escapedBytes) +
      (if p.length % 2 = 0 then 2 else 1) + 4 := by
  simp only [encodeFrame, List.length_append, flatMap_escapeByte_length, eofPadding_length, hex4_length,
    List.length_cons, List.length_nil]
  omega

/-- The longest frame has 2056 bytes: every payload byte escaped, and an even padding (R114). -/
theorem encodeFrame_length_le (t : Byte) {p : List Byte} (h : p.length ≤ 1024) :
    (encodeFrame t p).length ≤ 2056 := by
  have hcount : p.countP (· ∈ escapedBytes) ≤ p.length := List.countP_le_length
  rw [encodeFrame_length]
  split <;> omega

/-! ## The alphabet of a frame -/

/-- An escape target is neither 0x00 nor 0xFF (R65). -/
theorem ne_of_unescape_eq_some {t b : Byte} (h : unescape t = some b) : t ≠ 0x00#8 ∧ t ≠ 0xFF#8 := by
  constructor <;> rintro rfl <;> exact absurd h nofun

/-- An ORDINARY byte is none of the markers and neither 0x00 nor 0xFF (R64). -/
theorem ne_of_isOrdinary {b : Byte} (h : isOrdinary b = true) :
    b ≠ 0x3E#8 ∧ b ≠ 0x3C#8 ∧ b ≠ 0x5C#8 ∧ b ≠ 0x00#8 ∧ b ≠ 0xFF#8 := by
  refine ⟨?_, ?_, ?_, ?_, ?_⟩ <;> rintro rfl <;> exact absurd h (by decide)

/-- Escaping leaves no 0x00 and no 0xFF (R63). -/
theorem ne_of_mem_escapeByte {b c : Byte} (h : c ∈ escapeByte b) : c ≠ 0x00#8 ∧ c ≠ 0xFF#8 := by
  rcases escapeByte_cases b with ⟨he, hord⟩ | ⟨t, he, ht⟩ <;> rw [he] at h
  · obtain rfl := List.mem_singleton.mp h
    obtain ⟨-, -, -, h00, hFF⟩ := ne_of_isOrdinary hord
    exact ⟨h00, hFF⟩
  · rcases List.mem_pair.mp h with rfl | rfl
    · decide
    · exact ne_of_unescape_eq_some ht

/-- The padding holds EOF only. -/
theorem eq_eofByte_of_mem_eofPadding {n : Nat} {b : Byte} (h : b ∈ eofPadding n) : b = eofByte := by
  rw [eofPadding] at h
  split at h <;> simpa using h

/-- A digit is neither 0x00 nor 0xFF (R93). -/
theorem hexDigit_ne (n : BitVec 4) : hexDigit n ≠ 0x00#8 ∧ hexDigit n ≠ 0xFF#8 := by
  revert n
  decide

/-- After SOF and the type, 0x00 and 0xFF never occur in a frame (R63). -/
theorem ne_of_mem_drop_encodeFrame {t b : Byte} {p : List Byte} (h : b ∈ (encodeFrame t p).drop 2) :
    b ≠ 0x00#8 ∧ b ≠ 0xFF#8 := by
  have hdrop : (encodeFrame t p).drop 2 =
      p.flatMap escapeByte ++ eofPadding p.length ++ hex4 (frameChk t p) := rfl
  rw [hdrop, List.mem_append, List.mem_append] at h
  rcases h with (hpay | hpad) | hdig
  · obtain ⟨a, -, ha⟩ := List.mem_flatMap.mp hpay
    exact ne_of_mem_escapeByte ha
  · rw [eq_eofByte_of_mem_eofPadding hpad]
    decide
  · simp only [hex4, List.mem_cons, List.not_mem_nil, or_false] at hdig
    rcases hdig with rfl | rfl | rfl | rfl <;> exact hexDigit_ne _

/-- Every SOF and every EOF of the list stands right after an ESC (R63). -/
def MarkersEscaped (bs : List Byte) : Prop :=
  ∀ i b, bs[i]? = some b → b = 0x3E#8 ∨ b = 0x3C#8 → 0 < i ∧ bs[i - 1]? = some 0x5C#8

theorem MarkersEscaped.append {bs cs : List Byte} (hbs : MarkersEscaped bs) (hcs : MarkersEscaped cs) :
    MarkersEscaped (bs ++ cs) := by
  intro i b hi hb
  rcases Nat.lt_or_ge i bs.length with hlt | hge
  · rw [List.getElem?_append_left hlt] at hi
    rw [List.getElem?_append_left (by omega)]
    exact hbs i b hi hb
  · rw [List.getElem?_append_right hge] at hi
    obtain ⟨hpos, hprev⟩ := hcs _ b hi hb
    rw [List.getElem?_append_right (by omega), Nat.sub_right_comm]
    exact ⟨by omega, hprev⟩

/-- Escaping a byte leaves SOF and EOF only as escape targets (R63). -/
theorem markersEscaped_escapeByte (a : Byte) : MarkersEscaped (escapeByte a) := by
  intro i b hi hb
  rcases escapeByte_cases a with ⟨he, hord⟩ | ⟨t, he, -⟩ <;> rw [he] at hi ⊢
  · obtain ⟨-, rfl⟩ : i = 0 ∧ a = b := by simpa [List.getElem?_singleton] using hi
    obtain ⟨h3E, h3C, -⟩ := ne_of_isOrdinary hord
    exact absurd hb (not_or.mpr ⟨h3E, h3C⟩)
  · match i with
    | 0 =>
      obtain rfl : escByte = b := by simpa using hi
      exact absurd hb (by decide)
    | 1 => exact ⟨Nat.one_pos, rfl⟩

theorem markersEscaped_payload (p : List Byte) : MarkersEscaped (p.flatMap escapeByte) := by
  induction p with
  | nil => exact fun i b hi => nomatch hi
  | cons a p ih => exact (markersEscaped_escapeByte a).append ih

/-! ## TXW and TXF -/

/-- A COUNT below 2^28 is the response word of a TXF (R57, R116). -/
theorem response_txf {n : Nat} (h : n < 2 ^ 28) : responseWord .ok (txfData n) = BitVec.ofNat 32 n := by
  apply BitVec.eq_of_toNat_eq
  simp only [responseWord, statusCode, txfData, BitVec.toNat_or, BitVec.toNat_setWidth, BitVec.toNat_ofNat]
  rw [Nat.mod_eq_of_lt h]
  simp

/-- TXW past the last cell (R115). -/
theorem exec_txw_of_ge {n : Index} (h : txbufSize ≤ n.toNat) (b : Byte) (s : State) :
    exec (.txw n b) s = answer s .badArg 0#28 :=
  if_pos h

/-- TXF above MAX_PAYLOAD (R117). -/
theorem exec_txf_of_gt {n : Index} (h : maxPayload < n.toNat) (t : Byte) (s : State) :
    exec (.txf n t) s = answer s .badArg 0#28 :=
  if_pos h

/-- TXF of at most MAX_PAYLOAD cells that all hold a byte (R116). -/
theorem exec_txf_of_ok {n : Index} {s : State} {p : List Byte} (h : n.toNat ≤ maxPayload)
    (hp : s.txbuf.readRange 0 n.toNat = .ok p) (t : Byte) :
    exec (.txf n t) s =
      answer (s.emit ((encodeFrame t p).map .txByte)) .ok (txfData (encodeFrame t p).length) := by
  rw [exec, execTxf, if_neg (Nat.not_lt.mpr h), hp]

/-- TXF of at most MAX_PAYLOAD cells, cell `i` the first unwritten one (R118). -/
theorem exec_txf_of_error {n : Index} {s : State} {i : Nat} (h : n.toNat ≤ maxPayload)
    (hi : s.txbuf.readRange 0 n.toNat = .error i) (t : Byte) :
    exec (.txf n t) s = .fault (.unwrittenTxbuf i) := by
  rw [exec, execTxf, if_neg (Nat.not_lt.mpr h), hi]

/-- A range whose smallest unwritten address is `i` reads as that address (R118). -/
theorem Memory.readRange_error {m : Memory} {n i : Nat} (hin : i < n) (hi : m.read i = none)
    (hmin : ∀ j, j < i → m.read j ≠ none) : m.readRange 0 n = .error i := by
  rcases m.readRange_cases 0 n with ⟨p, -, hlen, hcells⟩ | ⟨k, -, he, hk, hkmin⟩
  · have hcell := hcells i (by omega)
    rw [Nat.zero_add, hi] at hcell
    exact nomatch hcell
  · simp only [Nat.zero_add] at he hk hkmin
    rcases lt_trichotomy k i with hlt | rfl | hgt
    · exact absurd hk (hmin k hlt)
    · exact he
    · exact absurd hi (hkmin i hgt)

/-! ## The statements about the encoder -/

/-- Settles O14: the row of the word, then `Memory.write` at the operand. -/
theorem txwWritesOneCell : Obligations.TxwWritesOneCell := by
  refine ⟨fun w hw => decode_of_opSelects (o := .txw) (opSelects_iff.mpr hw),
    fun n b s => ⟨fun h => ?_, fun h => ?_⟩⟩
  · rw [exec_txw_of_ge h, answer, State.respond, response_badArg]
    rfl
  · refine ⟨s.txbuf.write n.toNat b, ?_, Memory.read_write_same _ _ _, fun a => Memory.read_write_other _ b⟩
    rw [exec_txw_of_lt h, answer, State.respond, response_ok]
    rfl

/-- Settles O15: the row of the word, then the three results of reading the first `n` cells. -/
theorem txfSendsTheStagedFrame : Obligations.TxfSendsTheStagedFrame := by
  refine ⟨fun w hw => decode_of_opSelects (o := .txf) (opSelects_iff.mpr hw),
    fun n t s => ⟨fun h => ?_, fun p hn hlen hcells => ?_, fun i hn hin hi hmin => ?_⟩⟩
  · rw [exec_txf_of_gt h, answer, State.respond, response_badArg]
    rfl
  · have hread : s.txbuf.readRange 0 n.toNat = .ok p := by
      rw [← hlen]
      exact Memory.readRange_ok (by simpa using hcells)
    have hcount : (encodeFrame t p).length ≤ 2056 := encodeFrame_length_le t (hlen ▸ hn)
    rw [exec_txf_of_ok hn hread, answer, State.respond, State.emit_emit, response_txf (by omega), State.emit,
      List.append_assoc]
  · exact exec_txf_of_error hn (Memory.readRange_error hin hi hmin) t

/-- Settles O17: the lengths of the four parts, and the alphabet of each. -/
theorem encodedFramesHaveBoundedLengthAndAlphabet : Obligations.EncodedFramesHaveBoundedLengthAndAlphabet := by
  refine fun t p hp => ⟨encodeFrame_length t p, ?_, encodeFrame_length_le t hp,
    fun b => ne_of_mem_drop_encodeFrame, markersEscaped_payload p⟩
  rw [encodeFrame_length]
  split <;> omega

/-- Settles O16: EscapeByte and the padding as the spec lists them. -/
theorem encodeFollowsTheWireFormat : Obligations.EncodeFollowsTheWireFormat := by
  intro t p
  rw [← eofPadding_eq_ite_even, ← funext escapeByte_eq_ite]
  rfl

end Sys2Proof.Machine
end

section
/-! PROOFS. The round trip of a frame (spec 41_encoder.md R119): what the deframer does with each part of an encoded
frame, put together to a run from INIT to INIT. -/

namespace Sys2Proof.Machine

/-! ## Receiving bytes that produce nothing -/

/-- The bytes `bs`, received one after another from `s`, lead to `u` and produce nothing besides their responses,
whatever else is presented after them and whatever was produced before. -/
def ReceivesQuietly (bs : List Byte) (s u : State) : Prop :=
  ∀ (is : List Input) (os : List Output),
    runSteps bs.length { s with inputs := bs.map .rxByte ++ is, outputs := os } =
      .next { u with inputs := is, outputs := os ++ List.replicate bs.length (.response 0x00000000#32) }

theorem ReceivesQuietly.nil (s : State) : ReceivesQuietly [] s s := by
  intro is os
  simp

/-- Receiving two lists of bytes is receiving one after the other. -/
theorem ReceivesQuietly.append {bs cs : List Byte} {s u v : State} (h : ReceivesQuietly bs s u)
    (h' : ReceivesQuietly cs u v) : ReceivesQuietly (bs ++ cs) s v := by
  intro is os
  rw [List.map_append, List.append_assoc, List.length_append, runSteps_add (h _ os), h', List.append_assoc,
    List.replicate_append_replicate]

/-- A received byte is taken by one step, which runs RXB of it (R52, R55). -/
theorem runSteps_one_rxByte (s : State) (b : Byte) (is : List Input) (os : List Output) :
    runSteps 1 { s with inputs := .rxByte b :: is, outputs := os } =
      execRxb b { s with inputs := is, outputs := os } := by
  refine runSteps_of_step (k := 0) (Eq.trans (step_rxByte rfl) ?_)
  rw [decode_rxWord]
  exact execRxb_next b _

/-- The condition of a case does not read the inputs or the outputs (R152). -/
theorem rxRuleApplies_with_traffic (r : RxRule) (b : Byte) (s : State) (is : List Input) (os : List Output) :
    rxRuleApplies r b { s with inputs := is, outputs := os } = rxRuleApplies r b s := by
  cases r <;> rfl

/-- Every case of RXB carries the inputs and the outputs along: with others it does the same to the rest. -/
theorem rxRuleEffect_with_traffic (r : RxRule) (b : Byte) (s : State) (is : List Input) (os : List Output) :
    rxRuleEffect r b { s with inputs := is, outputs := os } =
      { rxRuleEffect r b s with
        next := { (rxRuleEffect r b s).next with inputs := is, outputs := os } } := by
  cases r
  case chk3Verified =>
    have hfull : ({ s with inputs := is, outputs := os } : State).rxqFull = s.rxqFull := rfl
    simp only [rxRuleEffect, rxChk3Verified, hfull]
    split <;> rfl
  all_goals rfl

/-- A byte whose case only changes the deframer is received quietly. -/
theorem receivesQuietly_of_applies {r : RxRule} {b : Byte} {s u : State} (ha : rxRuleApplies r b s = true)
    (he : rxRuleEffect r b s = quiet u) : ReceivesQuietly [b] s u := by
  intro is os
  have ha' := (rxRuleApplies_with_traffic r b s is os).trans ha
  rw [List.map_singleton, List.singleton_append, List.length_singleton, runSteps_one_rxByte,
    execRxb_of_applies ha', rxRuleEffect_with_traffic, he]
  exact finishRxb_quiet b { u with inputs := is, outputs := os }

/-- A run over bytes received quietly and one byte more ends as RXB of that byte does. -/
theorem ReceivesQuietly.runSteps_last {bs : List Byte} {s u : State} {b : Byte} {rest : List Input}
    (h : ReceivesQuietly bs s u) (hin : s.inputs = (bs ++ [b]).map .rxByte ++ rest) :
    runSteps (bs ++ [b]).length s =
      execRxb b { u with inputs := rest,
                         outputs := s.outputs ++ List.replicate bs.length (.response 0x00000000#32) } := by
  have hs : s = { s with inputs := bs.map .rxByte ++ (.rxByte b :: rest), outputs := s.outputs } := by
    rw [List.map_append, List.append_assoc] at hin
    rw [← List.singleton_append, ← List.map_singleton, ← hin]
  rw [List.length_append, hs, runSteps_add (h _ _), List.length_singleton, runSteps_one_rxByte]

/-! ## The parts of a frame -/

/-- SOF in INIT (R131). -/
theorem receivesQuietly_sof {s : State} (hs : s.state = .init) :
    ReceivesQuietly [sofByte] s { s with state := .sof, data := [], chk := [sofByte], dig := [] } :=
  receivesQuietly_of_applies (r := .initSof) (by simp [rxRuleApplies, hs]) rfl

/-- Any byte in SOF is the type (R133). -/
theorem receivesQuietly_type {s : State} (t : Byte) (hs : s.state = .sof) :
    ReceivesQuietly [t] s { s with type := t, chk := s.chk ++ [t], state := .data } :=
  receivesQuietly_of_applies (r := .sofType) (by simp [rxRuleApplies, hs]) rfl

/-- A payload byte, escaped or not, is appended to the payload and to the checksum's input (R135, R138, R140). -/
theorem receivesQuietly_escapeByte {s : State} (b : Byte) (hs : s.state = .data)
    (hroom : s.data.length < maxPayload) :
    ReceivesQuietly (escapeByte b) s { s with data := s.data ++ [b], chk := s.chk ++ [b] } := by
  rcases escapeByte_cases b with ⟨he, hord⟩ | ⟨t, he, ht⟩ <;> rw [he]
  · exact receivesQuietly_of_applies (r := .dataAppend) (by simp [rxRuleApplies, hs, hord, hroom]) rfl
  · have hesc : ReceivesQuietly [escByte] s { s with state := .esc } :=
      receivesQuietly_of_applies (r := .dataEsc) (by simp [rxRuleApplies, hs]) rfl
    have htarget : ReceivesQuietly [t] { s with state := .esc }
        { s with data := s.data ++ [b], chk := s.chk ++ [b] } := by
      refine receivesQuietly_of_applies (r := .escAppend) (by simp [rxRuleApplies, isTarget, ht, hroom]) ?_
      rw [rxRuleEffect, ht, rxEscAppend, ← hs]
      rfl
    exact hesc.append htarget

/-- The escaped payload, received in DATA with room for it, is appended unescaped (R119). -/
theorem receivesQuietly_payload {s : State} (p : List Byte) (hs : s.state = .data)
    (hroom : s.data.length + p.length ≤ maxPayload) :
    ReceivesQuietly (p.flatMap escapeByte) s { s with data := s.data ++ p, chk := s.chk ++ p } := by
  induction p generalizing s with
  | nil => simpa using ReceivesQuietly.nil s
  | cons b p ih =>
    rw [List.length_cons] at hroom
    have hhead := receivesQuietly_escapeByte b hs (by omega)
    have htail := ih (s := { s with data := s.data ++ [b], chk := s.chk ++ [b] }) hs
      (by rw [List.length_append, List.length_singleton]; omega)
    rw [List.flatMap_cons]
    simpa using hhead.append htail

/-- The padding of the payload's length ends it (R136, R137, R143). -/
theorem receivesQuietly_eofPadding {s : State} (hs : s.state = .data) :
    ReceivesQuietly (eofPadding s.data.length) s
      { s with chk := s.chk ++ eofPadding s.data.length, state := .chk0 } := by
  rcases Nat.mod_two_eq_zero_or_one s.data.length with heven | hodd
  · have hpad : eofPadding s.data.length = [eofByte] ++ [eofByte] := by simp [eofPadding, heven]
    have hfirst : ReceivesQuietly [eofByte] s { s with chk := s.chk ++ [eofByte], state := .eof2 } :=
      receivesQuietly_of_applies (r := .dataEofEven) (by simp [rxRuleApplies, hs, heven]) rfl
    rw [hpad, ← List.append_assoc]
    exact hfirst.append (receivesQuietly_of_applies (r := .eof2Eof) rfl rfl)
  · have hpad : eofPadding s.data.length = [eofByte] := by simp [eofPadding, hodd]
    rw [hpad]
    exact receivesQuietly_of_applies (r := .dataEofOdd) (by simp [rxRuleApplies, hs, hodd]) rfl

/-- The first three digits are collected, whatever they are (R145, R146, R147). -/
theorem receivesQuietly_digits {s : State} (d0 d1 d2 : Byte) (hs : s.state = .chk0) :
    ReceivesQuietly [d0, d1, d2] s { s with dig := s.dig ++ [d0] ++ [d1] ++ [d2], state := .chk3 } := by
  have hfirst : ReceivesQuietly [d0] s { s with dig := s.dig ++ [d0], state := .chk1 } :=
    receivesQuietly_of_applies (r := .chk0) (by simp [rxRuleApplies, hs]) rfl
  have hsecond : ReceivesQuietly [d1] { s with dig := s.dig ++ [d0], state := .chk1 }
      { s with dig := s.dig ++ [d0] ++ [d1], state := .chk2 } :=
    receivesQuietly_of_applies (r := .chk1) rfl rfl
  have hthird : ReceivesQuietly [d2] { s with dig := s.dig ++ [d0] ++ [d1], state := .chk2 }
      { s with dig := s.dig ++ [d0] ++ [d1] ++ [d2], state := .chk3 } :=
    receivesQuietly_of_applies (r := .chk2) rfl rfl
  exact hfirst.append (hsecond.append hthird)

/-! ## A frame up to its last digit -/

/-- A frame's bytes before the digits, received from INIT: the frame is in progress, its padding complete. -/
theorem receivesQuietly_frameBody {s : State} (t : Byte) {p : List Byte} (hs : s.state = .init)
    (hp : p.length ≤ maxPayload) :
    ReceivesQuietly (frameBody t p) s
      { s with state := .chk0, type := t, data := p, chk := checksumInput t p, dig := [] } := by
  have htype := (receivesQuietly_sof hs).append (receivesQuietly_type t rfl)
  have hpayload := htype.append (receivesQuietly_payload p rfl (by simpa using hp))
  exact hpayload.append (receivesQuietly_eofPadding
    (s := { s with state := .data, type := t, data := p, chk := [sofByte, t] ++ p, dig := [] }) rfl)

/-- The same with three digits: CHK3 holds the frame, its checksum's input and the three digits. -/
theorem receivesQuietly_frameBody_digits {s : State} (t : Byte) {p : List Byte} (d0 d1 d2 : Byte)
    (hs : s.state = .init) (hp : p.length ≤ maxPayload) :
    ReceivesQuietly (frameBody t p ++ [d0, d1, d2]) s
      { s with state := .chk3, type := t, data := p, chk := checksumInput t p, dig := [d0, d1, d2] } :=
  (receivesQuietly_frameBody t hs hp).append (receivesQuietly_digits d0 d1 d2 rfl)

/-! ## The last digit -/

/-- A frame ends with the last of its four digits; before it stand its body and three digits. -/
theorem encodeFrame_eq_append_last (t : Byte) (p : List Byte) :
    ∃ d0 d1 d2 d3, hex4 (frameChk t p) = [d0, d1, d2] ++ [d3] ∧
      encodeFrame t p = frameBody t p ++ [d0, d1, d2] ++ [d3] :=
  ⟨_, _, _, _, rfl, by rw [encodeFrame_eq_frameBody_append, List.append_assoc]; rfl⟩

/-- A run over bytes that lead quietly to CHK3 and over the last digit, when the four are those of the checksum, ends
with the case VERIFIED (R148). -/
theorem ReceivesQuietly.runSteps_verified {bs : List Byte} {s u : State} {d0 d1 d2 d3 : Byte} {rest : List Input}
    (h : ReceivesQuietly bs s u) (hin : s.inputs = (bs ++ [d3]).map .rxByte ++ rest) (hu : u.state = .chk3)
    (hdig : u.dig = [d0, d1, d2]) (hchk : hex4 (checksum u.chk) = [d0, d1, d2] ++ [d3]) :
    runSteps (bs ++ [d3]).length s =
      finishRxb d3 (rxChk3Verified { u with
        inputs := rest
        outputs := s.outputs ++ List.replicate bs.length (.response 0x00000000#32) }) := by
  rw [h.runSteps_last hin]
  exact execRxb_of_applies (r := .chk3Verified) (by simp [rxRuleApplies, digitsMatch, hu, hdig, hchk])

/-- Settles O40: everything up to the last digit is received quietly, and the last digit is the case VERIFIED, with
room in the queue or without. -/
theorem anEncodedFrameIsReceived : Obligations.AnEncodedFrameIsReceived := by
  intro t p s rest hp hs hin
  obtain ⟨d0, d1, d2, d3, hhex, hframe⟩ := encodeFrame_eq_append_last t p
  rw [hframe] at hin ⊢
  have hlen : (frameBody t p ++ [d0, d1, d2] ++ [d3]).length - 1 = (frameBody t p ++ [d0, d1, d2]).length := by
    rw [List.length_append]
    rfl
  rw [(receivesQuietly_frameBody_digits t d0 d1 d2 hs hp).runSteps_verified hin rfl rfl hhex, hlen]
  refine ⟨fun hroom => ?_, fun hfull => ⟨d3, List.getLast?_concat, ?_⟩⟩
  · exact finishRxb_verified_queued d3 (by simpa [State.rxqFull] using hroom)
  · exact finishRxb_verified_full d3 (by simpa [State.rxqFull] using hfull)

end Sys2Proof.Machine
end

section
/-! PROOFS. The cases of the deframer (spec 42_deframer.md R130 to R149, R152): an instruction with a received byte
runs the one case whose condition holds, which ends quietly, in a framing error, or with a verified frame. -/

namespace Sys2Proof.Machine

/-! ## RXB of a byte and the row of a case -/

/-- RXB and a row with its byte receive the same byte. -/
theorem rxByte_of_mem_row {i row : Instr} {b : Byte} (hrow : row.rxByte = some b) (hi : i ∈ [.rxb b, row]) :
    i.rxByte = some b := by
  rcases List.mem_pair.mp hi with rfl | rfl
  · rfl
  · exact hrow

/-- RXB and its rows, where a case's condition holds, are that case (R130, R152). -/
theorem exec_of_applies {r : RxRule} {i row : Instr} {b : Byte} {s : State} (ha : rxRuleApplies r b s = true)
    (hrow : row.rxByte = some b) (hi : i ∈ [.rxb b, row]) :
    exec i s = finishRxb b (rxRuleEffect r b s) :=
  (exec_of_rxByte (rxByte_of_mem_row hrow hi) s).trans (execRxb_of_applies ha)

/-- A case that only changes the deframer answers with the response of no event. -/
theorem exec_of_applies_quiet {r : RxRule} {i row : Instr} {b : Byte} {s u : State}
    (ha : rxRuleApplies r b s = true) (he : rxRuleEffect r b s = quiet u) (hrow : row.rxByte = some b)
    (hi : i ∈ [.rxb b, row]) :
    exec i s = .next { u with outputs := u.outputs ++ [.response 0x00000000#32] } := by
  rw [exec_of_applies ha hrow hi, he, finishRxb_quiet]

/-- A case that is a framing error resets the parser and answers with its diagnostic (R194). -/
theorem exec_of_applies_violation {r : RxRule} {i row : Instr} {b : Byte} {s : State} {d : Diag}
    (ha : rxRuleApplies r b s = true) (he : rxRuleEffect r b s = violation d s) (hrow : row.rxByte = some b)
    (hi : i ∈ [.rxb b, row]) :
    exec i s = .next { s with state := .init, data := [], chk := [], dig := [],
                              outputs := s.outputs ++
                                [.diag d b, .response (responseWord .ok (rxbData (some d) false false))] } := by
  rw [exec_of_applies ha hrow hi, he, finishRxb_violation]

/-! ## The classes of a byte, as the spec lists them -/

/-- The ORDINARY bytes (R64). -/
theorem isOrdinary_iff_not_mem (b : Byte) :
    isOrdinary b = true ↔ b ∉ [0x5C#8, 0x3C#8, 0x3E#8, 0x00#8, 0xFF#8] := by
  simp [isOrdinary, isForbidden, escByte, eofByte, sofByte, zeroByte, onesByte, and_assoc]

/-- The valid escape targets (R65). -/
theorem isTarget_iff_mem (b : Byte) :
    isTarget b = true ↔ b ∈ [0x3E#8, 0x3C#8, 0x5C#8, 0x30#8, 0x46#8] := by
  simp only [isTarget, unescape, sofByte, eofByte, escByte, zeroTarget, onesTarget, beq_iff_eq, List.mem_cons,
    List.not_mem_nil, or_false]
  repeat' split
  all_goals simp_all

/-! ## DATA and ESC -/

/-- A FORBIDDEN byte in DATA (R134). -/
theorem exec_dataForbidden {s : State} {b : Byte} {i row : Instr} (hs : s.state = .data)
    (hb : isForbidden b = true) (hrow : row.rxByte = some b) (hi : i ∈ [.rxb b, row]) :
    exec i s = .next { s with state := .init, data := [], chk := [], dig := [],
                              outputs := s.outputs ++ [.diag .badData b, .response 0x00000010#32] } :=
  exec_of_applies_violation (r := .dataForbidden) (by simp [rxRuleApplies, hs, hb]) rfl hrow hi

/-- A valid target in ESC with room for the byte it stands for (R140). -/
theorem exec_escAppend {s : State} {b v : Byte} {i row : Instr} (hs : s.state = .esc)
    (hroom : s.data.length < maxPayload) (hv : unescape b = some v) (hrow : row.rxByte = some b)
    (hi : i ∈ [.rxb b, row]) :
    exec i s = .next { s with data := s.data ++ [v], chk := s.chk ++ [v], state := .data,
                              outputs := s.outputs ++ [.response 0x00000000#32] } := by
  have he : rxRuleEffect .escAppend b s =
      quiet { s with data := s.data ++ [v], chk := s.chk ++ [v], state := .data } := by
    rw [rxRuleEffect, hv]
    rfl
  exact exec_of_applies_quiet (by simp [rxRuleApplies, isTarget, hs, hroom, hv]) he hrow hi

/-- A valid target in ESC without room (R141). -/
theorem exec_escOversize {s : State} {b : Byte} {i row : Instr} (hs : s.state = .esc)
    (hfull : s.data.length = maxPayload) (hb : isTarget b = true) (hrow : row.rxByte = some b)
    (hi : i ∈ [.rxb b, row]) :
    exec i s = .next { s with state := .init, data := [], chk := [], dig := [],
                              outputs := s.outputs ++ [.diag .oversize b, .response 0x00000030#32] } :=
  exec_of_applies_violation (r := .escOversize) (by simp [rxRuleApplies, hs, hfull, hb]) rfl hrow hi

/-! ## What every case produces -/

/-- What the response of RXB says, as a number: DIAG in [7:4], ENQ in [1], FRAME in [0] (R57, R130). -/
theorem response_rxb_toNat (d : Option Diag) (enq frame : Bool) :
    (responseWord .ok (rxbData d enq frame)).toNat =
      16 * (diagCode d).toNat + (if enq then 2 else 0) + (if frame then 1 else 0) := by
  cases enq <;> cases frame <;> rcases d with _ | _ | _ | _ | _ | _ | _ <;> rfl

/-- Which events one received byte may produce together: a frame comes alone and queued, or with RXQ_OVERFLOW and not
queued; without a frame nothing is queued, and the queue cannot overflow (R148). -/
def RxEffect.EventsAgree (e : RxEffect) : Prop :=
  (e.frame.isSome = true → e.diag = none ∧ e.enq = true ∨ e.diag = some .rxqOverflow ∧ e.enq = false) ∧
  (e.frame.isSome = false → e.enq = false ∧ e.diag ≠ some .rxqOverflow)

/-- Only a verified frame delivers a frame, and only it may find the queue full. -/
theorem rxRuleEffect_eventsAgree (r : RxRule) (b : Byte) (s : State) : (rxRuleEffect r b s).EventsAgree := by
  cases r
  case chk3Verified =>
    rw [rxRuleEffect, rxChk3Verified]
    split
    · exact ⟨fun _ => .inr ⟨rfl, rfl⟩, nofun⟩
    · exact ⟨fun _ => .inl ⟨rfl, rfl⟩, nofun⟩
  all_goals exact ⟨nofun, fun _ => ⟨rfl, nofun⟩⟩

/-! ## The statements about all cases -/

/-- Settles O37: a row runs its case where the case's condition holds, which is the case RXB runs there, and RXB
anywhere else (log entry 4). -/
theorem rowsOfRxbAgreeWithRxb : Obligations.RowsOfRxbAgreeWithRxb :=
  fun _ _ s hb => exec_of_rxByte hb s

/-- Settles O38: the case the byte meets has its condition, and a case with its condition is the one the byte
meets. -/
theorem exactlyOneCaseApplies : Obligations.ExactlyOneCaseApplies := by
  intro b s hlen
  have hmem : ∀ r : RxRule, r ∈ rxRules := fun r => by cases r <;> decide
  exact ⟨rxRuleOf b s, hmem _, applies_rxRuleOf b hlen, fun r' _ ha => (rxRuleOf_of_applies ha).symm⟩

/-- Settles O39: the outputs are those of the end of RXB, and `rxRuleEffect_eventsAgree` says which of them come
together. -/
theorem rxbOutputsComeInOrder : Obligations.RxbOutputsComeInOrder := by
  intro b s
  have hexec : exec (.rxb b) s = finishRxb b (rxRuleEffect (rxRuleOf b s) b s) := rfl
  have hout := rxRuleEffect_outputs (rxRuleOf b s) b s
  have hagree := rxRuleEffect_eventsAgree (rxRuleOf b s) b s
  generalize rxRuleEffect (rxRuleOf b s) b s = e at hexec hout hagree
  refine ⟨_, e.frame, e.diag, e.enq, responseWord .ok (rxbData e.diag e.enq e.frame.isSome), hexec, ?_, ?_, hagree⟩
  · rw [State.emit_outputs, hout, List.append_assoc, List.append_assoc, List.append_assoc]
  · rw [response_rxb_toNat]
    rcases e.diag with _ | _ | _ | _ | _ | _ | _ <;> rfl

/-! ## The statements about each case -/

/-- Settles O24: the cases R131 and R132. -/
theorem rxbInInit : Obligations.RxbInInit := by
  refine fun s b hs => ⟨fun i hi => ?_, fun hb i hi => ?_⟩
  · exact exec_of_applies_quiet (r := .initSof) (by simp [rxRuleApplies, hs, sofByte]) rfl rfl hi
  · exact exec_of_applies_quiet (r := .initDiscard) (by simp [rxRuleApplies, hs, hb, sofByte]) rfl rfl hi

/-- Settles O25: the case R133. -/
theorem rxbCapturesTheType : Obligations.RxbCapturesTheType :=
  fun s _ hs _ hi => exec_of_applies_quiet (r := .sofType) (by simp [rxRuleApplies, hs]) rfl rfl hi

/-- Settles O26: `exec_dataForbidden` for each of the three bytes. -/
theorem rxbForbiddenByteInData : Obligations.RxbForbiddenByteInData := by
  intro s b i hs hb
  rcases hb with ⟨rfl, hi⟩ | ⟨rfl, hi⟩ | ⟨rfl, hi⟩ <;> exact exec_dataForbidden hs rfl rfl hi

/-- Settles O27: the case R135. -/
theorem rxbEntersEscape : Obligations.RxbEntersEscape :=
  fun s hs _ hi => exec_of_applies_quiet (r := .dataEsc) (by simp [rxRuleApplies, hs, escByte]) rfl rfl hi

/-- Settles O28: the cases R136 and R137, by the parity of the payload's length. -/
theorem rxbEndsThePayload : Obligations.RxbEndsThePayload := by
  refine fun s hs => ⟨fun hodd i hi => ?_, fun heven i hi => ?_⟩
  · exact exec_of_applies_quiet (r := .dataEofOdd) (by simp [rxRuleApplies, hs, hodd, eofByte]) rfl rfl hi
  · exact exec_of_applies_quiet (r := .dataEofEven) (by simp [rxRuleApplies, hs, heven, eofByte]) rfl rfl hi

/-- Settles O29: the cases R138 and R139, by the payload's length. -/
theorem rxbAppendsAnOrdinaryByte : Obligations.RxbAppendsAnOrdinaryByte := by
  intro s b hs hb
  have hord : isOrdinary b = true := (isOrdinary_iff_not_mem b).mpr hb
  refine ⟨fun hroom i hi => ?_, fun hfull i hi => ?_⟩
  · exact exec_of_applies_quiet (r := .dataAppend) (by simp [rxRuleApplies, hs, hord, maxPayload, hroom]) rfl rfl hi
  · exact exec_of_applies_violation (r := .dataOversize) (by simp [rxRuleApplies, hs, hord, maxPayload, hfull]) rfl
      rfl hi

/-- Settles O30: `exec_escAppend` for each of the five targets. -/
theorem rxbAppendsTheUnescapedByte : Obligations.RxbAppendsTheUnescapedByte := by
  intro s v i hs hroom hv
  rcases hv with ⟨rfl, hi⟩ | ⟨rfl, hi⟩ | ⟨rfl, hi⟩ | ⟨rfl, hi⟩ | ⟨rfl, hi⟩ <;>
    exact exec_escAppend hs hroom rfl rfl hi

/-- Settles O31: `exec_escOversize` for each of the five targets. -/
theorem rxbOversizeInEscape : Obligations.RxbOversizeInEscape := by
  intro s b i hs hfull hb
  rcases hb with ⟨rfl, hi⟩ | ⟨rfl, hi⟩ | ⟨rfl, hi⟩ | ⟨rfl, hi⟩ | ⟨rfl, hi⟩ <;>
    exact exec_escOversize hs hfull rfl rfl hi

/-- Settles O32: the case R142. -/
theorem rxbRejectsABadTarget : Obligations.RxbRejectsABadTarget := by
  intro s b hs hb i hi
  have hbad : isTarget b = false := Bool.eq_false_of_not_eq_true fun h => hb ((isTarget_iff_mem b).mp h)
  exact exec_of_applies_violation (r := .escBad) (by simp [rxRuleApplies, hs, hbad]) rfl rfl hi

/-- Settles O33: the cases R143 and R144. -/
theorem rxbExpectsASecondEof : Obligations.RxbExpectsASecondEof := by
  refine fun s b hs => ⟨fun i hi => ?_, fun hb i hi => ?_⟩
  · exact exec_of_applies_quiet (r := .eof2Eof) (by simp [rxRuleApplies, hs, eofByte]) rfl rfl hi
  · exact exec_of_applies_violation (r := .eof2Missing) (by simp [rxRuleApplies, hs, hb, eofByte]) rfl rfl hi

/-- Settles O34: the cases R145, R146 and R147. -/
theorem rxbCollectsDigits : Obligations.RxbCollectsDigits := by
  intro s b i after h
  rcases h with ⟨hs, rfl, hi⟩ | ⟨hs, rfl, hi⟩ | ⟨hs, rfl, hi⟩
  · exact exec_of_applies_quiet (r := .chk0) (by simp [rxRuleApplies, hs]) rfl rfl hi
  · exact exec_of_applies_quiet (r := .chk1) (by simp [rxRuleApplies, hs]) rfl rfl hi
  · exact exec_of_applies_quiet (r := .chk2) (by simp [rxRuleApplies, hs]) rfl rfl hi

/-- Settles O35: the case R148, with room in the queue and without. -/
theorem rxbDeliversAVerifiedFrame : Obligations.RxbDeliversAVerifiedFrame := by
  intro s b hs hdig i hi
  have hcase : exec i s = finishRxb b (rxChk3Verified s) :=
    exec_of_applies (r := .chk3Verified) (by simp [rxRuleApplies, digitsMatch, hs, hdig]) rfl hi
  rw [hcase]
  exact ⟨fun hroom => finishRxb_verified_queued b (by simpa [State.rxqFull] using hroom),
    fun hfull => finishRxb_verified_full b (by simpa [State.rxqFull] using hfull)⟩

/-- Settles O36: the case R149. -/
theorem rxbDiscardsAMismatch : Obligations.RxbDiscardsAMismatch := by
  intro s b hs hdig i hi
  exact exec_of_applies_violation (r := .chk3Mismatch) (by simp [rxRuleApplies, digitsMatch, hs, hdig]) rfl rfl hi

end Sys2Proof.Machine
end

section
/-! PROOFS. Damaged and unfinished frames (spec 42_deframer.md R154, R155): an inverted payload bit changes the digits
a frame needs, other digits discard it, and from any state the deframer is back in INIT within 2055 bytes. -/

namespace Sys2Proof.Machine

/-! ## The digits a payload needs -/

/-- Four digits name one checksum (R93). -/
theorem hex4_injective {c d : BitVec 16} (h : hex4 c = hex4 d) : c = d := by
  simp only [hex4, List.cons.injEq, and_true] at h
  obtain ⟨h3, h2, h1, h0⟩ := h
  have nibble_eq {i : Nat} (hi : hexDigit (c.extractLsb' i 4) = hexDigit (d.extractLsb' i 4)) :
      c.toNat / 2 ^ i % 2 ^ 4 = d.toNat / 2 ^ i % 2 ^ 4 := by
    simpa [BitVec.extractLsb'_toNat, Nat.shiftRight_eq_div_pow] using congrArg BitVec.toNat (hexDigit_injective hi)
  have := nibble_eq h3
  have := nibble_eq h2
  have := nibble_eq h1
  have := nibble_eq h0
  apply BitVec.eq_of_toNat_eq
  omega

/-- Replacing a payload byte replaces that byte of the checksum's input, two bytes further on (R94). -/
theorem checksumInput_set {p : List Byte} {i : Nat} (hi : i < p.length) (t v : Byte) :
    checksumInput t (p.set i v) = (checksumInput t p).set (i + 2) v := by
  rw [checksumInput, checksumInput, List.length_set, List.append_assoc, List.append_assoc,
    ← List.set_append_left _ _ hi]
  rfl

/-- A payload byte is a byte of the checksum's input, two bytes further on (R94). -/
theorem checksumInput_getElem? {p : List Byte} {i : Nat} (hi : i < p.length) (t : Byte) :
    (checksumInput t p)[i + 2]? = p[i]? := by
  rw [checksumInput, List.append_assoc]
  exact List.getElem?_append_left hi

/-- Settles O21: the inverted bit is one of the checksum's input, so O20 applies, and different checksums have
different digits. -/
theorem oneInvertedPayloadBitChangesTheDigits : Obligations.OneInvertedPayloadBitChangesTheDigits := by
  intro t p i k b hp hb hk hdigits
  obtain ⟨hi, -⟩ := List.getElem?_eq_some_iff.mp hb
  have hsame := hex4_injective hdigits
  rw [frameChk, frameChk, checksumInput_set hi] at hsame
  exact oneInvertedBitChangesTheChecksum _ _ k b (checksumInput_length_le t hp)
    ((checksumInput_getElem? hi t).trans hb) hk hsame

/-! ## A frame with other digits -/

/-- A frame without its four digits is its body. -/
theorem dropLast_encodeFrame (t : Byte) (p : List Byte) :
    (encodeFrame t p).dropLast.dropLast.dropLast.dropLast = frameBody t p := by
  rw [encodeFrame_eq_frameBody_append]
  simp [List.dropLast_eq_take, List.take_take, List.take_append]

/-- A run over bytes that lead quietly to CHK3 and over a last digit, when the four are not those of the checksum, ends
with the case MISMATCH (R149). -/
theorem ReceivesQuietly.runSteps_mismatch {bs : List Byte} {s u : State} {b : Byte} {rest : List Input}
    (h : ReceivesQuietly bs s u) (hin : s.inputs = (bs ++ [b]).map .rxByte ++ rest) (hu : u.state = .chk3)
    (hdig : u.dig ++ [b] ≠ hex4 (checksum u.chk)) :
    runSteps (bs ++ [b]).length s =
      .next { u with state := .init, data := [], chk := [], dig := [], inputs := rest,
                     outputs := s.outputs ++ List.replicate bs.length (.response 0x00000000#32) ++
                       [.diag .checksum b, .response 0x00000040#32] } := by
  rw [h.runSteps_last hin]
  exact rxbDiscardsAMismatch { u with
    inputs := rest
    outputs := s.outputs ++ List.replicate bs.length (.response 0x00000000#32) } b hu hdig (.rxb b)
    (List.mem_cons_self ..)

/-- Settles O41: everything up to the last digit is received quietly, as in O40, and the last digit is the case
MISMATCH of O36. -/
theorem aFrameWithOtherDigitsIsDiscarded : Obligations.AFrameWithOtherDigitsIsDiscarded := by
  intro t p d0 d1 d2 d3 s rest hp hs hdig hin
  have hbytes : frameBody t p ++ [d0, d1, d2, d3] = frameBody t p ++ [d0, d1, d2] ++ [d3] := by
    rw [List.append_assoc]
    rfl
  have hlen : (encodeFrame t p).length = (frameBody t p ++ [d0, d1, d2] ++ [d3]).length := by
    rw [← hbytes, encodeFrame_eq_frameBody_append, List.length_append, List.length_append]
    rfl
  have hpred : (encodeFrame t p).length - 1 = (frameBody t p ++ [d0, d1, d2]).length := by
    rw [hlen, List.length_append]
    rfl
  rw [dropLast_encodeFrame, hbytes] at hin
  rw [hpred, hlen, (receivesQuietly_frameBody_digits t d0 d1 d2 hs hp).runSteps_mismatch hin rfl hdig]

/-! ## The way back to INIT -/

/-- How many received bytes can still pass before the deframer is in INIT: the bytes that end a frame, and two for
each payload byte there is room for (R155). -/
def State.bytesToInit (s : State) : Nat :=
  match s.state with
  | .init => 0
  | .sof => 2 * (maxPayload - s.data.length) + 7
  | .data => 2 * (maxPayload - s.data.length) + 6
  | .esc => 2 * (maxPayload - s.data.length) + 5
  | .eof2 => 5
  | .chk0 => 4
  | .chk1 => 3
  | .chk2 => 2
  | .chk3 => 1

/-- The bound of R155. -/
theorem State.bytesToInit_le (s : State) : s.bytesToInit ≤ 2055 := by
  unfold State.bytesToInit maxPayload
  split <;> omega

/-- The number is 0 exactly in INIT. -/
theorem State.bytesToInit_eq_zero_iff (s : State) : s.bytesToInit = 0 ↔ s.state = .init := by
  cases hs : s.state <;> simp [State.bytesToInit, hs]

/-- A step into INIT uses the number up. -/
theorem State.bytesToInit_lt_of_init {s u : State} (hu : u.state = .init) (hs : s.state ≠ .init) :
    u.bytesToInit < s.bytesToInit := by
  rw [u.bytesToInit_eq_zero_iff.mpr hu]
  exact Nat.pos_of_ne_zero (mt s.bytesToInit_eq_zero_iff.mp hs)

/-- A payload byte taken after ESC fills room that the number counts twice (R140). -/
theorem rxEscAppend_bytesToInit_lt {s : State} (v : Byte) (hs : s.state = .data ∨ s.state = .esc)
    (hroom : s.data.length < maxPayload) : (rxEscAppend v s).next.bytesToInit < s.bytesToInit := by
  rcases hs with hs | hs <;>
    simp only [State.bytesToInit, rxEscAppend, quiet, hs, List.length_append, List.length_singleton] <;> omega

/-- Outside INIT every case of RXB, where its condition holds, comes nearer to INIT. -/
theorem rxRuleEffect_bytesToInit_lt {r : RxRule} {b : Byte} {s : State} (ha : rxRuleApplies r b s = true)
    (hs : s.state ≠ .init) : (rxRuleEffect r b s).next.bytesToInit < s.bytesToInit := by
  cases r <;> simp only [rxRuleApplies, Bool.and_eq_true, beq_iff_eq, decide_eq_true_eq, and_assoc] at ha
  case initSof | initDiscard =>
    obtain ⟨hinit, -⟩ := ha
    exact absurd hinit hs
  case sofType | chk0 | chk1 | chk2 =>
    simp [State.bytesToInit, rxRuleEffect, rxSofType, rxChk0, rxChk1, rxChk2, quiet, ha]
  case dataEsc | dataEofOdd | dataEofEven | eof2Eof =>
    obtain ⟨hstate, -⟩ := ha
    simp only [State.bytesToInit, rxRuleEffect, rxDataEsc, rxDataEofOdd, rxDataEofEven, rxEof2Eof, quiet, hstate]
    omega
  case dataAppend =>
    obtain ⟨hstate, -, hroom⟩ := ha
    rw [rxRuleEffect, rxDataAppend_eq_rxEscAppend b hstate]
    exact rxEscAppend_bytesToInit_lt b (.inl hstate) hroom
  case escAppend =>
    obtain ⟨hstate, -, hroom⟩ := ha
    exact rxEscAppend_bytesToInit_lt _ (.inr hstate) hroom
  case chk3Verified =>
    rw [rxRuleEffect, rxChk3Verified]
    split <;> exact State.bytesToInit_lt_of_init rfl hs
  case dataForbidden | dataOversize | escOversize | escBad | eof2Missing | chk3Mismatch =>
    exact State.bytesToInit_lt_of_init rfl hs

/-- A byte received outside INIT is taken by a step that comes nearer to INIT. -/
theorem step_rxByte_bytesToInit_lt {s : State} {b : Byte} {is : List Input} (h : s.Inv) (hs : s.state ≠ .init)
    (hin : s.inputs = .rxByte b :: is) :
    ∃ t, step s = .next t ∧ t.Inv ∧ t.inputs = is ∧ t.bytesToInit < s.bytesToInit := by
  have hstep : step s = execRxb b { s with inputs := is } := by
    rw [step_rxByte hin, decode_rxWord]
    rfl
  obtain ⟨hdata, -⟩ := invariantBoundsTheBuffers s h
  have hnext := hstep.trans (execRxb_next b _)
  obtain ⟨-, hinputs, -⟩ := execRxb_frame (hstep.symm.trans hnext)
  exact ⟨_, hnext, step_keeps_inv h hnext, hinputs,
    rxRuleEffect_bytesToInit_lt (s := { s with inputs := is }) (applies_rxRuleOf b hdata) hs⟩

/-- Outside INIT, as many received bytes as the number says bring the deframer back to INIT, if not fewer. -/
theorem runSteps_reaches_init {s : State} {bs : List Byte} {rest : List Input} (h : s.Inv) (hs : s.state ≠ .init)
    (hlen : s.bytesToInit ≤ bs.length) (hin : s.inputs = bs.map .rxByte ++ rest) :
    ∃ k t, 1 ≤ k ∧ k ≤ s.bytesToInit ∧ runSteps k s = .next t ∧ t.state = .init := by
  induction bs generalizing s with
  | nil => exact absurd (s.bytesToInit_eq_zero_iff.mp (Nat.le_zero.mp hlen)) hs
  | cons b bs ih =>
    obtain ⟨u, hstep, hu, huin, hlt⟩ := step_rxByte_bytesToInit_lt h hs hin
    by_cases huinit : u.state = .init
    · exact ⟨1, u, le_rfl, by omega, runSteps_of_step (k := 0) hstep, huinit⟩
    · rw [List.length_cons] at hlen
      obtain ⟨k, t, -, hk, hrun, ht⟩ := ih hu huinit (by omega) huin
      exact ⟨k + 1, t, by omega, by omega, (runSteps_of_step hstep).trans hrun, ht⟩

/-- Settles O42: `State.bytesToInit` falls with every byte received outside INIT and is at most 2055; in INIT every
byte but SOF is discarded (R132). -/
theorem theDeframerReturnsToInit : Obligations.TheDeframerReturnsToInit := by
  refine ⟨fun s bs rest h hs hlen hin => ?_, fun s b hs hb => ?_⟩
  · have hbound := s.bytesToInit_le
    obtain ⟨k, t, hpos, hk, hrun, ht⟩ := runSteps_reaches_init h hs (by omega) hin
    exact ⟨k, t, hpos, hk.trans hbound, hrun, ht⟩
  · obtain ⟨-, hdiscard⟩ := rxbInInit s b hs
    exact ⟨_, hdiscard hb _ (List.mem_cons_self ..), hs⟩

end Sys2Proof.Machine
end

section
/-! PROOFS. The receive queue and the control operations (spec 43_queue_control.md R170 to R179): the one word of each
operation without operands, the numbers that the response words of RQH, RQB and STAT are, and what each operation does
to the queue. -/

namespace Sys2Proof.Machine

/-! ## The words of the operations -/

/-- One word decodes to a well-formed instruction that receives no byte: its own (R58, R59, R61). -/
theorem decode_eq_iff_eq_encode {i : Instr} (hwf : i.wf = true) (hb : i.rxByte = none) (w : Word) :
    decode w = i ↔ w = encode i := by
  constructor
  · rintro rfl
    obtain ⟨hword, -⟩ := encodeOfDecodeIsTheWord w
    exact hword.symm
  · rintro rfl
    exact decode_encode_of_no_rxByte hwf hb

/-- Every mask holds the four bits of OP, so a word that selects a row has the row's OP (R56, R58). -/
theorem op_eq_of_opSelects {o : OpCode} {w : Word} (h : opSelects o w = true) : w.extractLsb' 28 4 = o.op := by
  have hmask : (opMask o).extractLsb' 28 4 = BitVec.allOnes 4 := by cases o <;> rfl
  rw [OpCode.op, ← opSelects_iff.mp h, BitVec.extractLsb'_and, hmask, BitVec.and_allOnes]

/-- NOP is the only row with OP 0x0 (R58). -/
theorem eq_nop_of_op_eq_zero {o : OpCode} (h : o.op = 0x0#4) : o = .nop := by
  cases o
  case nop => rfl
  all_goals exact absurd h (by decide)

/-- A word with OP 0x0 that is not the word of NOP is ILLEGAL (R60, R170). -/
theorem decode_of_op_zero {w : Word} (hop : w.extractLsb' 28 4 = 0x0#4) (hw : w ≠ 0x00000000#32) :
    decode w = .illegal w := by
  rcases decode_cases w with ⟨o, hsel, hd⟩ | ⟨-, hd⟩
  · obtain rfl := eq_nop_of_op_eq_zero ((op_eq_of_opSelects hsel).symm.trans hop)
    exact absurd ((decode_eq_iff_eq_encode rfl rfl w).mp hd) hw
  · exact hd

/-! ## The response words as numbers -/

/-- A response with status OK is its data (R57). -/
theorem response_ok_toNat (d : BitVec 28) : (responseWord .ok d).toNat = d.toNat := by
  have hd : d.toNat < 2 ^ 32 := d.isLt.trans (by decide)
  simpa [responseWord, statusCode] using hd

/-- The response of RQB is the payload byte (R57, R174). -/
theorem response_rqb (b : Byte) : responseWord .ok (rqbData b) = BitVec.ofNat 32 b.toNat := by
  apply BitVec.eq_of_toNat_eq
  rw [response_ok_toNat, rqbData, BitVec.toNat_setWidth, BitVec.toNat_ofNat]
  omega

/-- A field in place above a value that stays below it does not meet it: the two add up. -/
theorem toNat_shiftLeft_or {n w : Nat} {x y : BitVec w} (hx : x.toNat * 2 ^ n < 2 ^ w) (hy : y.toNat < 2 ^ n) :
    (x <<< n ||| y).toNat = x.toNat * 2 ^ n + y.toNat := by
  rw [BitVec.toNat_or, BitVec.toNat_shiftLeft, Nat.shiftLeft_eq, Nat.mod_eq_of_lt hx, ← Nat.shiftLeft_eq,
    Nat.shiftLeft_add_eq_or_of_lt hy]

/-- The response of RQH for a payload within R28's bound: LEN in [26:16] and TYPE in [7:0] (R57, R172). -/
theorem response_rqh {f : Frame} (hf : f.payload.length ≤ 1024) :
    responseWord .ok (rqhData f) = BitVec.ofNat 32 (f.payload.length * 65536 + f.type.toNat) := by
  have hlen : (BitVec.ofNat 28 f.payload.length).toNat = f.payload.length := Nat.mod_eq_of_lt (by omega)
  have htype : (f.type.setWidth 28).toNat = f.type.toNat := BitVec.toNat_setWidth_of_le (by decide)
  apply BitVec.eq_of_toNat_eq
  rw [response_ok_toNat, rqhData, toNat_shiftLeft_or (by omega) (by omega), hlen, htype, BitVec.toNat_ofNat]
  omega

/-- The code of a deframer state is its place in the table of R21. -/
theorem deframerCode_toNat (d : DeframerState) :
    (deframerCode d).toNat =
      [DeframerState.init, .sof, .data, .esc, .eof2, .chk0, .chk1, .chk2, .chk3].idxOf d := by
  cases d <;> rfl

/-- The status word within the bounds of R23 and R28: its three fields do not meet (R32). -/
theorem statusWord_toNat {s : State} (hdata : s.data.length ≤ 1024) (hrxq : s.rxq.length ≤ 255) :
    (statusWord s).toNat = s.rxq.length * 2 ^ 16 + (s.data.length * 2 ^ 4 + (deframerCode s.state).toNat) := by
  have hcount : (BitVec.ofNat 28 s.rxq.length).toNat = s.rxq.length := Nat.mod_eq_of_lt (by omega)
  have hlen : (BitVec.ofNat 28 s.data.length).toNat = s.data.length := Nat.mod_eq_of_lt (by omega)
  have hcode : ((deframerCode s.state).setWidth 28).toNat = (deframerCode s.state).toNat :=
    BitVec.toNat_setWidth_of_le (by decide)
  have hlow := toNat_shiftLeft_or (n := 4) (x := BitVec.ofNat 28 s.data.length)
    (y := (deframerCode s.state).setWidth 28) (by omega) (by omega)
  rw [statusWord, BitVec.or_comm, BitVec.or_comm (BitVec.setWidth _ _),
    toNat_shiftLeft_or (by omega) (by omega), hlow, hcount, hlen, hcode]

/-! ## RQH, RQB and RQP on an empty queue and on a queue with a head -/

/-- RQH with nothing queued (R172). -/
theorem exec_rqh_of_nil {s : State} (h : s.rxq = []) : exec .rqh s = answer s .empty 0#28 := by
  rw [exec, execRqh, h]

/-- RQH with a head frame (R172). -/
theorem exec_rqh_of_cons {s : State} {f : Frame} {rest : List Frame} (h : s.rxq = f :: rest) :
    exec .rqh s = answer s .ok (rqhData f) := by
  rw [exec, execRqh, h]

/-- RQB with nothing queued (R174). -/
theorem exec_rqb_of_nil {s : State} (h : s.rxq = []) (n : Index) : exec (.rqb n) s = answer s .empty 0#28 := by
  rw [exec, execRqb, h]

/-- RQB at or past the end of the head frame's payload (R174). -/
theorem exec_rqb_of_ge {s : State} {f : Frame} {rest : List Frame} {n : Index} (h : s.rxq = f :: rest)
    (hn : f.payload.length ≤ n.toNat) : exec (.rqb n) s = answer s .badArg 0#28 := by
  simp only [exec, execRqb, h, List.getElem?_eq_none hn]

/-- RQB inside the head frame's payload (R174). -/
theorem exec_rqb_of_lt {s : State} {f : Frame} {rest : List Frame} {n : Index} (h : s.rxq = f :: rest)
    (hn : n.toNat < f.payload.length) : exec (.rqb n) s = answer s .ok (rqbData f.payload[n.toNat]) := by
  simp only [exec, execRqb, h, List.getElem?_eq_getElem hn]

/-- RQP with nothing queued (R176). -/
theorem exec_rqp_of_nil {s : State} (h : s.rxq = []) : exec .rqp s = answer s .empty 0#28 := by
  rw [exec, execRqp, h]

/-- RQP with a head frame (R176). -/
theorem exec_rqp_of_cons {s : State} {f : Frame} {rest : List Frame} (h : s.rxq = f :: rest) :
    exec .rqp s = answer s.dequeue .ok 0#28 := by
  rw [exec, execRqp, h]

/-! ## The statements about the queue and the control operations -/

/-- Settles O46: RXB and its rows by `execRxb_frame`; of the other operations RQP takes the head away and RST empties
the queue. -/
theorem theQueueIsFirstInFirstOut : Obligations.TheQueueIsFirstInFirstOut := by
  intro i s t ht
  cases hb : i.rxByte with
  | some b =>
    obtain ⟨-, -, -, hsame | ⟨hroom, hpush, hout⟩⟩ := execRxb_frame (exec_of_rxByte hb s ▸ ht)
    · exact .inl hsame
    · exact .inr (.inl ⟨rfl, hroom, hpush, _, hout⟩)
  | none =>
    rcases exec_cases_of_no_rxByte hb s with ⟨_, _, he⟩ | ⟨_, _, -, -, he⟩ |
      ⟨_, _, _, -, -, -, -, he⟩ | ⟨_, _, _, -, -, -, -, he⟩ | ⟨hrqp, ⟨f, rest, hq⟩, he⟩ |
      ⟨hrst, he⟩ <;> rw [he] at ht
    case inr.inr.inl => exact nomatch ht
    all_goals obtain rfl := eq_respond_of_answer ht
    · exact .inl rfl
    · exact .inl rfl
    · exact .inl rfl
    · exact .inr (.inr (.inl ⟨hrqp, f, by simp [hq]⟩))
    · exact .inr (.inr (.inr ⟨hrst, rfl⟩))

/-- Settles O47: the response is the number of `statusWord_toNat`, and each field is read off it. -/
theorem statReportsTheState : Obligations.StatReportsTheState := by
  refine ⟨decode_eq_iff_eq_encode rfl rfl, fun s hdata hrxq => ⟨responseWord .ok (statusWord s), rfl, ?_⟩⟩
  have hword := (response_ok_toNat _).trans (statusWord_toNat hdata hrxq)
  have hcode := (deframerCode s.state).isLt
  rw [← deframerCode_toNat]
  generalize responseWord .ok (statusWord s) = w at hword
  have hfield (lo len : Nat) : (w.extractLsb' lo len).toNat = w.toNat / 2 ^ lo % 2 ^ len := by
    rw [BitVec.extractLsb'_toNat, Nat.shiftRight_eq_div_pow]
  refine ⟨?_, ?_, ?_, ?_, BitVec.eq_of_toNat_eq ?_⟩
  · rw [hfield]; omega
  · rw [hfield]; omega
  · rw [BitVec.getLsbD, Nat.testBit_eq_decide_div_mod_eq, decide_eq_false_iff_not]; omega
  · rw [hfield]; omega
  · rw [hfield, BitVec.toNat_ofNat]; omega

/-- Settles O43: the empty queue and the queue with a head. -/
theorem rqhReadsTheHeader : Obligations.RqhReadsTheHeader := by
  refine ⟨decode_eq_iff_eq_encode rfl rfl, fun s => ⟨fun h => exec_rqh_of_nil h, fun t p rest h hp => ?_⟩⟩
  rw [exec_rqh_of_cons h, ← response_rqh (f := ⟨t, p⟩) hp]
  rfl

/-- Settles O44: the row of the word, under the mask of log entry 14; then the empty queue, an index past the payload
and one inside it. -/
theorem rqbReadsAPayloadByte : Obligations.RqbReadsAPayloadByte := by
  refine ⟨fun w hw => decode_of_opSelects (o := .rqb) (opSelects_iff.mpr hw),
    fun n s => ⟨fun h => exec_rqb_of_nil h n, fun t p rest h =>
      ⟨fun hn => exec_rqb_of_ge h hn, fun hn => ?_⟩⟩⟩
  rw [exec_rqb_of_lt h hn, ← response_rqb]
  rfl

/-- Settles O45: the empty queue and the queue with a head, which `State.dequeue` removes. -/
theorem rqpRemovesTheHead : Obligations.RqpRemovesTheHead := by
  refine ⟨decode_eq_iff_eq_encode rfl rfl, fun s => ⟨fun h => exec_rqp_of_nil h, fun f rest h => ?_⟩⟩
  rw [exec_rqp_of_cons h, answer, State.dequeue, h]
  rfl

/-- Settles O48: the word of NOP, the other words with OP 0x0, and the answer. -/
theorem nopOnlyAnswers : Obligations.NopOnlyAnswers :=
  ⟨decode_eq_iff_eq_encode rfl rfl, fun _ => decode_of_op_zero, fun _ => rfl⟩

/-- Settles O49: the word of RST, and `State.softReset` with the response produced. -/
theorem rstResetsAllButTheTransmitBuffer : Obligations.RstResetsAllButTheTransmitBuffer :=
  ⟨decode_eq_iff_eq_encode rfl rfl, fun _ => rfl⟩

end Sys2Proof.Machine
end

section
/-! PROOFS. What stops the block, what changes RXQ_NONEMPTY, and the step with nothing presented (spec
60_exceptions.md R188, R189, R192, R203). -/

namespace Sys2Proof.Machine

/-! ## The RXQ_NONEMPTY level -/

/-- RXQ_NONEMPTY is low exactly when the queue is empty (R192). -/
theorem State.rxqNonempty_eq_false_iff (s : State) : s.rxqNonempty = false ↔ s.rxq = [] := by
  simp [State.rxqNonempty]

/-- RXQ_NONEMPTY is high exactly when the queue holds a frame (R192). -/
theorem State.rxqNonempty_eq_true_iff (s : State) : s.rxqNonempty = true ↔ s.rxq ≠ [] := by
  simp [State.rxqNonempty]

/-! ## The statements -/

/-- Settles O50: RXB and its rows always answer, and of the cases of the other operations only a TXF over an
unwritten cell does not. -/
theorem onlyAnUnwrittenCellStopsTheBlock : Obligations.OnlyAnUnwrittenCellStopsTheBlock := by
  intro i s
  cases hb : i.rxByte with
  | some b => exact .inl ⟨_, (exec_of_rxByte hb s).trans (execRxb_next b s)⟩
  | none =>
    rcases exec_cases_of_no_rxByte hb s with ⟨_, _, he⟩ | ⟨_, _, -, -, he⟩ | hstop |
      ⟨_, _, _, -, -, -, -, he⟩ | ⟨-, -, he⟩ | ⟨-, he⟩
    case inr.inr.inl => exact .inr hstop
    all_goals exact .inl ⟨_, he⟩

/-- Settles O54: the level follows the queue, and by `theQueueIsFirstInFirstOut` (O46) the queue stays, gains a
frame at its end from a received byte, loses its head to RQP, or is emptied by RST. -/
theorem rxqNonemptyFollowsTheQueue : Obligations.RxqNonemptyFollowsTheQueue := by
  intro i s t ht
  rw [s.rxqNonempty_eq_false_iff, s.rxqNonempty_eq_true_iff, t.rxqNonempty_eq_false_iff,
    t.rxqNonempty_eq_true_iff]
  refine ⟨List.length_pos_iff.symm, ?_⟩
  rcases theQueueIsFirstInFirstOut i s t ht with hsame | ⟨hbyte, -, hpush, -⟩ | ⟨hrqp, f, hpop⟩ |
    ⟨hrst, hempty⟩
  · rw [hsame]
    exact ⟨fun hs hne => absurd hs hne, fun hne hs => absurd hs hne⟩
  · exact ⟨fun hs _ => ⟨hbyte, by simp [hpush, hs]⟩, fun _ h => by simp [hpush] at h⟩
  · exact ⟨fun hs => by simp [hs] at hpop, fun _ h => .inl ⟨hrqp, by simp [hpop, h]⟩⟩
  · exact ⟨fun _ hne => absurd hempty hne, fun _ _ => .inr hrst⟩

/-- Settles O8: with no input there is nothing to take (that a step is taken then is log entry 2's choice). -/
theorem withNothingPresentedTheStateHolds : Obligations.WithNothingPresentedTheStateHolds := by
  intro s h
  rw [step, present, h]

end Sys2Proof.Machine
end

section
/-! PROOFS. Power-on reset (spec 70_reset_and_hazards.md R215, R217; 10_state.md R30). -/

namespace Sys2Proof.Machine

/-- STAT answers 0 when each field it reports is 0: the code of INIT, no payload byte and no queued frame (R178). -/
theorem exec_stat_of_init_of_empty {s : State} (hstate : s.state = .init) (hdata : s.data = [])
    (hrxq : s.rxq = []) :
    exec .stat s = .next { s with outputs := s.outputs ++ [.response 0x00000000#32] } := by
  have hstatus : statusWord s = 0#28 := by
    rw [statusWord, hstate, hdata, hrxq]
    rfl
  change answer s .ok (statusWord s) = _
  rw [hstatus]
  rfl

/-- Settles O9: the step is `State.powerOnReset` with the input taken (`step_powerOnReset`); what it keeps is log
entry 8's. -/
theorem powerOnResetLeavesTheResetState : Obligations.PowerOnResetLeavesTheResetState :=
  fun _ _ hin => ⟨_, step_powerOnReset hin, rfl, rfl, rfl, rfl, rfl, rfl, Memory.read_nil, rfl, rfl, rfl,
    rfl, exec_stat_of_init_of_empty rfl rfl rfl⟩

end Sys2Proof.Machine
end
